-- ==== Sys2Proof/Word.lean ====
section
/-! DEFINITION. The words of the part's messages, epoch numbers and their distance, and the two
plain operations on fixed tables that every block of the model uses. -/

namespace Sys2Proof

/-- One byte of a message, a response or an event record (chapter 11). -/
abbrev Byte := BitVec 8

/-- A two-byte message field. -/
abbrev Half := BitVec 16

/-- A four-byte slot value (R4: every request carries a value as a 4-byte unsigned number). -/
abbrev Value := BitVec 32

/-- An epoch number, 0 to 65535, wrapping (section 5.2 of 00_scope). -/
abbrev Epoch := BitVec 16

/-- The distance from epoch `a` to epoch `b`, (b − a) mod 65536 (00_scope, section 4). -/
def distance (a b : Epoch) : Nat := (b - a).toNat

/-- Table `v` with place `k` holding `x`. -/
def put {α : Type} {n : Nat} (v : Vector α n) (k : Fin n) (x : α) : Vector α n :=
  v.set k.val x k.isLt

/-- Table `v` with `f` applied to place `k`. -/
def modifyAt {α : Type} {n : Nat} (v : Vector α n) (k : Fin n) (f : α → α) : Vector α n :=
  put v k (f v[k])

@[simp] theorem put_get_same {α : Type} {n : Nat} (v : Vector α n) (k : Fin n) (x : α) :
    (put v k x)[k.val] = x := by
  simp [put]

theorem put_get_ne {α : Type} {n : Nat} (v : Vector α n) (k j : Fin n) (x : α) (h : k ≠ j) :
    (put v k x)[j.val] = v[j.val] := by
  have h' : k.val ≠ j.val := fun e => h (Fin.ext e)
  simp [put, Vector.getElem_set_ne, h']

/-- Reading a table after one write: the written value at the written place, the old one elsewhere. -/
theorem put_get {α : Type} {n : Nat} (v : Vector α n) (k j : Fin n) (x : α) :
    (put v k x)[j.val] = if k = j then x else v[j.val] := by
  by_cases h : k = j
  · subst h; simp
  · simp [h, put_get_ne v k j x h]

@[simp] theorem modifyAt_get_same {α : Type} {n : Nat} (v : Vector α n) (k : Fin n) (f : α → α) :
    (modifyAt v k f)[k.val] = f v[k.val] := by
  simp [modifyAt]

theorem modifyAt_get_ne {α : Type} {n : Nat} (v : Vector α n) (k j : Fin n) (f : α → α)
    (h : k ≠ j) : (modifyAt v k f)[j.val] = v[j.val] := by
  simp [modifyAt, put_get_ne v k j _ h]

/-- The low byte of a count that the part sends in one byte. -/
def byteOf (n : Nat) : Byte := BitVec.ofNat 8 n

/-- The byte of a flag: clear 00h, set 01h (section 11.3). -/
def flagByte (b : Bool) : Byte := if b then 0x01#8 else 0x00#8

/-- A two-byte field, most significant byte first (00_scope, section 5.1). -/
def halfBytes (h : Half) : List Byte := [h.extractLsb' 8 8, h.extractLsb' 0 8]

/-- A four-byte field, most significant byte first. -/
def valueBytes (v : Value) : List Byte :=
  [v.extractLsb' 24 8, v.extractLsb' 16 8, v.extractLsb' 8 8, v.extractLsb' 0 8]

/-- A count sent in two bytes. -/
def countBytes (n : Nat) : List Byte := halfBytes (BitVec.ofNat 16 n)

end Sys2Proof
end

