-- ==== Sys2Proof/Config.lean ====
section
/-! DEFINITION. The part's fixed counts, and the values the manual leaves open. An open value is an
opaque constant: nothing in Lean can evaluate it, so no proof can rest on it. Each is applied to the
draw number that `State.draws` holds (and to the place within one merge), so two draws need not
agree. -/

namespace Sys2Proof.Config

/-- Entries a dispatch queue has room for (R109). -/
def queueDepth : Nat := 32
/-- Record places of the pending store (R63). -/
def storePlaces : Nat := 192
/-- Event records a client's queue has room for (R166). -/
def eventDepth : Nat := 16
/-- Records one batch may hold (R38). -/
def batchRecords : Nat := 32
/-- The furthest distance at which a target may be sealed (00_scope, section 4: horizon). -/
def horizon : Nat := 240
/-- Bytes of a message that a port keeps (R156, R158). -/
def requestBytes : Nat := 36
/-- Probes one client may have outstanding (R121). -/
def probeLimit : Nat := 2

/-- FREE VALUE (R177): whether a RESET_N low time shorter than 1 µs acts as a full pin reset
(assumption 15). -/
opaque shortPulseResets : Nat → Bool

/-- FREE VALUE (R123): the head state READ_QUEUE reports for an EMPTY queue is not stated
(assumption 14). -/
opaque emptyHeadOnBus : Nat → Bool

/-- FREE VALUE (R123): the head late flag READ_QUEUE reports for an EMPTY queue is not stated. -/
opaque emptyHeadLate : Nat → Bool

/-- FREE VALUE (R172): two blocks that offer records in one event reach a client's queue in either
order; this decides, at each place of the merge, whether the first block's record goes first
(assumption 13). -/
opaque firstBlockFirst : Nat → Nat → Bool

end Sys2Proof.Config
end

