-- ==== Sys2Proof/Syntax.lean ====
section
/-! DEFINITION. The commands of the part, one constructor for each row of spec/opcode_table.json:
the requests of chapter 11 with their client, tag and raw argument fields, and the events that reach
the part from its pins, its clock and its downstream buses. -/

namespace Sys2Proof

/-- A client, which is the host port it sends on (section 5.3 of 00_scope: client k is on HPk). -/
abbrev Client := Fin 4
/-- A downstream bus, DB0 or DB1. -/
abbrev BusNo := Fin 2
/-- A downstream device number. -/
abbrev DeviceNo := Fin 8
/-- A slot number. -/
abbrev SlotNo := Fin 256

/-- An edge on TRIG, and the kind of edge that is a trigger (R94). -/
inductive Edge where
  | rising
  | falling
deriving DecidableEq, Repr

/-- How a message reaches a port: a two-wire write transaction to a 7-bit address (R156), or a
four-wire frame (R158), with the clocks of the frame after its last complete byte. -/
inductive Carrier where
  | twoWire (address : BitVec 7)
  | fourWire (bits : Fin 8)
deriving DecidableEq, Repr

/-- The end of a message at a port: its carrier, and whether the next message is taken before the
arbiter grants this one (R164). -/
structure Arrival where
  via : Carrier
  beforeGrant : Bool
deriving DecidableEq, Repr

/-- An attempt's byte that is not acknowledged (R135): `byte` is its number among the bytes that the
engine sends, the first being 0, and `dataLow` says whether DSDA is low before the next START. -/
structure Nack where
  byte : Nat
  dataLow : Bool
deriving DecidableEq, Repr

/-- An exceeded stretch limit (R136, R137): its bus, and how many items of the attempt, or how many
pulses of the recovery, were on the wires before the stretch. -/
structure LongStretch where
  bus : BusNo
  passed : Nat
deriving DecidableEq, Repr

/-- A port's pins at the end of start-up (R178): ADDR_k as the straps stand, whether a two-wire
transaction is under way, and whether HSEL_N_k is low. -/
structure PortPins where
  addr : BitVec 2
  underWay : Bool
  selectLow : Bool
deriving DecidableEq, Repr

/-- The two conditions an UNDETERMINED port watches (R154), and the STOP that ends a transaction it
ignores since the end of start-up (R178). -/
inductive FramingCondition where
  /-- HDI_k falls while HCK_k is high; `selectHigh` says whether HSEL_N_k is high at that moment. -/
  | startCondition (selectHigh : Bool)
  /-- A falling edge of HSEL_N_k. -/
  | selectFalls
  /-- HDI_k rises while HCK_k is high (R155). -/
  | stopCondition
deriving DecidableEq, Repr

/-- What holds the part in reset (R177). -/
inductive ResetCause where
  /-- RESET_N low for 1 µs or more. -/
  | resetLow
  /-- Power-up, before VDD lies within its limits. -/
  | powerUp
  /-- VDD falls below its minimum while the part runs. -/
  | supplyFall
  /-- RESET_N low for less than 1 µs: a full pin reset or nothing. -/
  | shortPulse
deriving DecidableEq, Repr

/-- One command per row of the opcode table. The operands of a request are the fields of its message
(section 11.1), as raw bytes: a value the argument tables do not list is judged by the serving
block. The operands of an event are what the pins show at that event. -/
inductive Instr where
  -- Slot Table, chapter 1
  | defineSlot (client : Client) (tag slot device : Byte) (register : Half) (format kind : Byte)
      (min max initial : Value)
  | undefineSlot (client : Client) (tag slot : Byte)
  | readSlot (client : Client) (tag slot : Byte)
  | writeNow (client : Client) (tag slot : Byte) (value : Value)
  -- Claim Table, chapter 2
  | claim (client : Client) (tag first count : Byte)
  | release (client : Client) (tag first count : Byte)
  | claimSchedule (client : Client) (tag : Byte)
  | releaseSchedule (client : Client) (tag : Byte)
  | revoke (client : Client) (tag named : Byte)
  | setLease (client : Client) (tag : Byte) (setting : Half)
  -- Batch Contexts, chapter 3
  | openBatch (client : Client) (tag target policy : Byte) (epoch : Half)
  | stage (client : Client) (tag slot : Byte) (value : Value)
  | stageRun (client : Client) (tag first count : Byte) (values : List Value)
  | unstage (client : Client) (tag slot : Byte)
  | abort (client : Client) (tag : Byte)
  | sealBatch (client : Client) (tag : Byte)
  | cancel (client : Client) (tag id : Byte)
  | readBatch (client : Client) (tag id : Byte)
  -- Epoch Generator, chapter 5
  | setGeometry (client : Client) (tag : Byte) (lspan vspan wopen wclose : Half) (edge : Byte)
  | start (client : Client) (tag mode : Byte) (epoch : Half)
  | stop (client : Client) (tag option : Byte)
  | resetSchedule (client : Client) (tag : Byte)
  | readSchedule (client : Client) (tag : Byte)
  -- Timing Outputs, chapter 8
  | readOutputs (client : Client) (tag : Byte)
  -- Dispatch Queues, chapter 6
  | readDevice (client : Client) (tag device : Byte) (register : Half) (width order : Byte)
  | readQueue (client : Client) (tag bus : Byte)
  -- Device table and buses, chapter 7
  | defineDevice (client : Client) (tag device state bus address size retries : Byte)
  | busConfig (client : Client) (tag bus speed : Byte)
  | busRecover (client : Client) (tag bus : Byte)
  | readBus (client : Client) (tag bus : Byte)
  -- Event Queues, chapter 10
  | fetch (client : Client) (tag count : Byte)
  | subscribe (client : Client) (tag set divider : Byte)
  -- Host ports, chapter 9
  | detach (client : Client) (tag : Byte)
  /-- A four-wire frame whose code byte is 00h, with `clocks` clocks after that byte (R159). -/
  | pollNone (client : Client) (clocks : Nat)
  /-- A message of the given bytes ends at the client's port (R160). Without a byte it is a transaction
  or frame with no complete byte, which is no message (R156, R159). -/
  | messageTaken (client : Client) (arrival : Arrival) (bytes : List Byte)
  /-- A message of the given bytes ends at the client's port while it is WORKING (R161). -/
  | messageRefused (client : Client) (via : Carrier) (bytes : List Byte)
  /-- A two-wire read transaction in which `count` bytes are clocked (R157). -/
  | readTransaction (client : Client) (address : BitVec 7) (count : Nat)
  | framingDetection (client : Client) (condition : FramingCondition)
  /-- The tick; the operands say whether a target holds DSCL0 and DSCL1 low at it (R136). -/
  | housekeepingTick (held0 held1 : Bool)
  | leaseLapse (client : Client)
  | lineAdvance
  | windowOpen
  | windowClose
  | epochEnd
  /-- An edge on TRIG after the opposite level was held for `heldFor` REFCLK cycles (R94). -/
  | trigger (edge : Edge) (heldFor : Nat)
  /-- The start of a transfer; `dataLow` says whether DSDA is low before the START (R137). -/
  | transferStart (bus : BusNo) (dataLow : Bool)
  /-- A byte of the attempt is not acknowledged (R135). -/
  | attemptNack (bus : BusNo) (nack : Nack)
  /-- The attempt completes with every byte acknowledged; the four bytes are those a probe reads,
  in the order received, of which a probe of width w takes the first w (R134). -/
  | transferEnd (bus : BusNo) (read0 read1 read2 read3 : Byte)
  /-- The stretch limit is exceeded (R136). -/
  | stretchLimitExceeded (stretch : LongStretch)
  /-- The recovery's pulses and STOP are done: how many looks found DSDA low, the two lines after
  the STOP, and DSDA before the next START if one follows (R137). -/
  | recoveryEnd (bus : BusNo) (lowLooks : Nat) (dataHigh clockHigh dataLowAtStart : Bool)
  | pinReset (cause : ResetCause)
  | resetRelease
  /-- The end of the start-up interval, with the pins of the four ports (R178). -/
  | startupEnd (pins0 pins1 pins2 pins3 : PortPins)
  /-- The code byte of a two-wire write transaction to the given address (R156). -/
  | twoWireCodeByte (client : Client) (address : BitVec 7)
  /-- A falling edge of HSEL_N on a port locked FOUR_WIRE (R158). -/
  | fourWireFrameStart (client : Client)
  | stretchEnd (bus : BusNo)
deriving DecidableEq, Repr

end Sys2Proof
end

