-- ==== Sys2Proof/WellFormed.lean ====
section
/-! DEFINITION. Which commands are messages that pass the port's length check, so that a request
term stands for bytes a client can send and have served. -/

namespace Sys2Proof

/-- R174 step 4 on a STAGE_RUN: with a count byte of 1 to 8 the message carries that many values;
with another count byte any number of values that fits into 36 bytes. -/
def stageRunLengthOk (count : Byte) (values : List Value) : Bool :=
  if 1 ≤ count.toNat ∧ count.toNat ≤ 8 then values.length == count.toNat
  else decide (values.length ≤ 8)

/-- A command is well formed when its message, if it is a request, passes the length check of R174.
STAGE_RUN is the one request whose length its operands decide. -/
def Instr.wf : Instr → Bool
  | .stageRun _ _ _ count values => stageRunLengthOk count values
  | _ => true

end Sys2Proof
end

