-- ==== Sys2Proof/Decode.lean ====
section
/-! DEFINITION. The request messages of chapter 11: the bytes of each request, the reading of a
request from its bytes, and the code and length rules. The opcode table gives no row any bits, so
`decodeTableWord` reads no command from a word. -/

namespace Sys2Proof

/-- The client that sends a request; none for an event. -/
def requestClient : Instr → Option Client
  | .defineSlot k .. | .undefineSlot k .. | .readSlot k .. | .writeNow k .. | .claim k ..
  | .release k .. | .claimSchedule k .. | .releaseSchedule k .. | .revoke k .. | .setLease k ..
  | .openBatch k .. | .stage k .. | .stageRun k .. | .unstage k .. | .abort k .. | .sealBatch k ..
  | .cancel k .. | .readBatch k .. | .setGeometry k .. | .start k .. | .stop k ..
  | .resetSchedule k .. | .readSchedule k .. | .readOutputs k .. | .readDevice k ..
  | .readQueue k .. | .defineDevice k .. | .busConfig k .. | .busRecover k .. | .readBus k ..
  | .fetch k .. | .subscribe k .. | .detach k .. => some k
  | .pollNone .. | .messageTaken .. | .messageRefused .. | .readTransaction ..
  | .framingDetection .. | .housekeepingTick .. | .leaseLapse .. | .lineAdvance | .windowOpen
  | .windowClose | .epochEnd | .trigger .. | .transferStart .. | .attemptNack .. | .transferEnd ..
  | .stretchLimitExceeded .. | .recoveryEnd .. | .pinReset .. | .resetRelease | .startupEnd ..
  | .twoWireCodeByte .. | .fourWireFrameStart .. | .stretchEnd .. => none

/-- The bytes of a request message (section 11.1): code, tag, arguments. An event has no message. -/
def messageOf : Instr → List Byte
  | .defineSlot _ tag slot device register format kind min max initial =>
      [0x10, tag, slot, device] ++ halfBytes register ++ [format, kind] ++ valueBytes min
        ++ valueBytes max ++ valueBytes initial
  | .undefineSlot _ tag slot => [0x11, tag, slot]
  | .readSlot _ tag slot => [0x12, tag, slot]
  | .writeNow _ tag slot value => [0x13, tag, slot] ++ valueBytes value
  | .claim _ tag first count => [0x20, tag, first, count]
  | .release _ tag first count => [0x21, tag, first, count]
  | .claimSchedule _ tag => [0x22, tag]
  | .releaseSchedule _ tag => [0x23, tag]
  | .revoke _ tag named => [0x24, tag, named]
  | .setLease _ tag setting => [0x25, tag] ++ halfBytes setting
  | .openBatch _ tag target policy epoch => [0x30, tag, target, policy] ++ halfBytes epoch
  | .stage _ tag slot value => [0x31, tag, slot] ++ valueBytes value
  | .stageRun _ tag first count values => [0x32, tag, first, count] ++ values.flatMap valueBytes
  | .unstage _ tag slot => [0x33, tag, slot]
  | .sealBatch _ tag => [0x34, tag]
  | .abort _ tag => [0x35, tag]
  | .cancel _ tag id => [0x36, tag, id]
  | .readBatch _ tag id => [0x37, tag, id]
  | .setGeometry _ tag lspan vspan wopen wclose edge =>
      [0x40, tag] ++ halfBytes lspan ++ halfBytes vspan ++ halfBytes wopen ++ halfBytes wclose
        ++ [edge]
  | .start _ tag mode epoch => [0x41, tag, mode] ++ halfBytes epoch
  | .stop _ tag option => [0x42, tag, option]
  | .resetSchedule _ tag => [0x43, tag]
  | .readSchedule _ tag => [0x44, tag]
  | .readOutputs _ tag => [0x48, tag]
  | .readDevice _ tag device register width order =>
      [0x50, tag, device] ++ halfBytes register ++ [width, order]
  | .readQueue _ tag bus => [0x51, tag, bus]
  | .defineDevice _ tag device state bus address size retries =>
      [0x60, tag, device, state, bus, address, size, retries]
  | .busConfig _ tag bus speed => [0x61, tag, bus, speed]
  | .busRecover _ tag bus => [0x62, tag, bus]
  | .readBus _ tag bus => [0x63, tag, bus]
  | .fetch _ tag count => [0x70, tag, count]
  | .subscribe _ tag set divider => [0x71, tag, set, divider]
  | .detach _ tag => [0x7E, tag]
  | .pollNone .. | .messageTaken .. | .messageRefused .. | .readTransaction ..
  | .framingDetection .. | .housekeepingTick .. | .leaseLapse .. | .lineAdvance | .windowOpen
  | .windowClose | .epochEnd | .trigger .. | .transferStart .. | .attemptNack .. | .transferEnd ..
  | .stretchLimitExceeded .. | .recoveryEnd .. | .pinReset .. | .resetRelease | .startupEnd ..
  | .twoWireCodeByte .. | .fourWireFrameStart .. | .stretchEnd .. => []

/-- What a request code fixes about the length of its message (section 11.1). -/
inductive LengthRule where
  | fixed (bytes : Nat)
  /-- STAGE_RUN: 4 + 4 × count. -/
  | run
deriving DecidableEq, Repr

/-- The request codes of section 11.5 with the length each fixes; none for any other code. -/
def lengthRule (code : Byte) : Option LengthRule :=
  match code.toNat with
  | 0x10 => some (.fixed 20)
  | 0x11 => some (.fixed 3)
  | 0x12 => some (.fixed 3)
  | 0x13 => some (.fixed 7)
  | 0x20 => some (.fixed 4)
  | 0x21 => some (.fixed 4)
  | 0x22 => some (.fixed 2)
  | 0x23 => some (.fixed 2)
  | 0x24 => some (.fixed 3)
  | 0x25 => some (.fixed 4)
  | 0x30 => some (.fixed 6)
  | 0x31 => some (.fixed 7)
  | 0x32 => some .run
  | 0x33 => some (.fixed 3)
  | 0x34 => some (.fixed 2)
  | 0x35 => some (.fixed 2)
  | 0x36 => some (.fixed 3)
  | 0x37 => some (.fixed 3)
  | 0x40 => some (.fixed 11)
  | 0x41 => some (.fixed 5)
  | 0x42 => some (.fixed 3)
  | 0x43 => some (.fixed 2)
  | 0x44 => some (.fixed 2)
  | 0x48 => some (.fixed 2)
  | 0x50 => some (.fixed 7)
  | 0x51 => some (.fixed 3)
  | 0x60 => some (.fixed 8)
  | 0x61 => some (.fixed 4)
  | 0x62 => some (.fixed 3)
  | 0x63 => some (.fixed 3)
  | 0x70 => some (.fixed 3)
  | 0x71 => some (.fixed 4)
  | 0x7E => some (.fixed 2)
  | _ => none

/-- Why a message is refused at the port (R174). -/
inductive ParseRefusal where
  | badCode
  | badLength
deriving DecidableEq, Repr

/-- R174 step 4: the lengths a STAGE_RUN message may have, by its count byte. -/
def runLengthOk (length : Nat) (count : Byte) : Bool :=
  decide (4 ≤ length) && decide (length ≤ 36) &&
    (if 1 ≤ count.toNat ∧ count.toNat ≤ 8 then length == 4 + 4 * count.toNat
     else length % 4 == 0)

/-- R174: the checks on a taken message's code byte and length, in order; none when it parses. The
code 00h is no request code here: a four-wire frame with it is a poll and is never taken (R159). -/
def parseRefusal (bytes : List Byte) : Option ParseRefusal :=
  match bytes with
  | [] => some .badLength
  | code :: rest =>
    match lengthRule code with
    | none => some .badCode
    | some rule =>
      if rest = [] then some .badLength
      else match rule with
        | .fixed n => if bytes.length = n then none else some .badLength
        | .run => if runLengthOk bytes.length (bytes.getD 3 0) then none else some .badLength

/-- A two-byte field from its bytes. -/
def halfOf (hi lo : Byte) : Half := hi ++ lo

/-- A four-byte field from its bytes. -/
def valueOf (a b c d : Byte) : Value := a ++ b ++ c ++ d

/-- The values of a STAGE_RUN from their bytes; none when a value is cut short. -/
def valuesOf : List Byte → Option (List Value)
  | [] => some []
  | a :: b :: c :: d :: rest => (valuesOf rest).map (valueOf a b c d :: ·)
  | _ => none

/-- The request of a STAGE_RUN's argument bytes, when its length passes R174. -/
def decodeRun (k : Client) (tag : Byte) : List Byte → Option Instr
  | first :: count :: rest =>
    if runLengthOk (rest.length + 4) count then
      (valuesOf rest).map (.stageRun k tag first count ·)
    else none
  | _ => none

/-- The request of a code, a tag and argument bytes (section 11.1), with the DEFINE_SLOT descriptor
of section 11.2. -/
def decodeArgs (k : Client) (code tag : Byte) (args : List Byte) : Option Instr :=
  match code.toNat, args with
  | 0x10, [slot, device, r1, r0, format, kind, a3, a2, a1, a0, b3, b2, b1, b0, c3, c2, c1, c0] =>
      some (.defineSlot k tag slot device (halfOf r1 r0) format kind (valueOf a3 a2 a1 a0)
        (valueOf b3 b2 b1 b0) (valueOf c3 c2 c1 c0))
  | 0x11, [slot] => some (.undefineSlot k tag slot)
  | 0x12, [slot] => some (.readSlot k tag slot)
  | 0x13, [slot, a, b, c, d] => some (.writeNow k tag slot (valueOf a b c d))
  | 0x20, [first, count] => some (.claim k tag first count)
  | 0x21, [first, count] => some (.release k tag first count)
  | 0x22, [] => some (.claimSchedule k tag)
  | 0x23, [] => some (.releaseSchedule k tag)
  | 0x24, [named] => some (.revoke k tag named)
  | 0x25, [hi, lo] => some (.setLease k tag (halfOf hi lo))
  | 0x30, [target, policy, hi, lo] => some (.openBatch k tag target policy (halfOf hi lo))
  | 0x31, [slot, a, b, c, d] => some (.stage k tag slot (valueOf a b c d))
  | 0x32, args => decodeRun k tag args
  | 0x33, [slot] => some (.unstage k tag slot)
  | 0x34, [] => some (.sealBatch k tag)
  | 0x35, [] => some (.abort k tag)
  | 0x36, [id] => some (.cancel k tag id)
  | 0x37, [id] => some (.readBatch k tag id)
  | 0x40, [l1, l0, v1, v0, o1, o0, c1, c0, edge] =>
      some (.setGeometry k tag (halfOf l1 l0) (halfOf v1 v0) (halfOf o1 o0) (halfOf c1 c0) edge)
  | 0x41, [mode, hi, lo] => some (.start k tag mode (halfOf hi lo))
  | 0x42, [option] => some (.stop k tag option)
  | 0x43, [] => some (.resetSchedule k tag)
  | 0x44, [] => some (.readSchedule k tag)
  | 0x48, [] => some (.readOutputs k tag)
  | 0x50, [device, r1, r0, width, order] =>
      some (.readDevice k tag device (halfOf r1 r0) width order)
  | 0x51, [bus] => some (.readQueue k tag bus)
  | 0x60, [device, state, bus, address, size, retries] =>
      some (.defineDevice k tag device state bus address size retries)
  | 0x61, [bus, speed] => some (.busConfig k tag bus speed)
  | 0x62, [bus] => some (.busRecover k tag bus)
  | 0x63, [bus] => some (.readBus k tag bus)
  | 0x70, [count] => some (.fetch k tag count)
  | 0x71, [set, divider] => some (.subscribe k tag set divider)
  | 0x7E, [] => some (.detach k tag)
  | _, _ => none

/-- The request that the bytes of a message from client `k` spell; none when they spell none. -/
def decodeRequest (k : Client) : List Byte → Option Instr
  | code :: tag :: args => decodeArgs k code tag args
  | _ => none

/-- The opcode table gives no row a word: no word of bits spells a command. -/
def decodeTableWord (_nbits _w : Nat) : Option Instr := none

end Sys2Proof
end

