-- ==== Sys2Proof/Machine/State.lean ====
section
/-! DEFINITION. The part's state, block by block as the manual's section 2 lists them, with the
value every field has after pin reset, and the two ways a step could stop. Every field is plain
data. -/

namespace Sys2Proof.Machine

open Sys2Proof

/-! ### Slot Table (chapter 1) -/

/-- The order of a slot's bytes on a downstream bus (R5). -/
inductive ByteOrder where
  | msbFirst
  | lsbFirst
deriving DecidableEq, Repr

/-- The class of a slot (R2). -/
inductive SlotClass where
  | epoch
  | immediate
  | standby
deriving DecidableEq, Repr

/-- Whether the device is taken to hold the live value (section 1.3). -/
inductive LiveState where
  | valid
  | uncertain
deriving DecidableEq, Repr

/-- A slot record without its derived fields (R1). `device` is none for LOCAL. -/
structure Slot where
  defined : Bool
  device : Option DeviceNo
  register : Half
  width : Nat
  order : ByteOrder
  cls : SlotClass
  lead : Nat
  min : Value
  max : Value
  prime : Bool
  live : Value
  liveState : LiveState
  applied : Option Epoch
deriving DecidableEq, Repr

/-- R19, first column: a general slot after pin reset, and after UNDEFINE_SLOT. -/
def Slot.undefined : Slot :=
  { defined := false, device := some 0, register := 0, width := 1, order := .msbFirst,
    cls := .epoch, lead := 0, min := 0, max := 0, prime := false, live := 0,
    liveState := .uncertain, applied := none }

/-- R9: an edge slot as the hardware fixes it, after pin reset. -/
def Slot.edgeSlot : Slot :=
  { defined := true, device := none, register := 0, width := 4, order := .msbFirst,
    cls := .epoch, lead := 0, min := 0, max := 0xFFFFFFFF, prime := false, live := 0,
    liveState := .valid, applied := none }

/-- R9: a form slot as the hardware fixes it, after pin reset. -/
def Slot.formSlot : Slot := { Slot.edgeSlot with width := 2, max := 0xF413 }

/-! ### Claim Table (chapter 2) -/

/-- A client's lease setting and counter, in housekeeping ticks (section 2.1). -/
structure Lease where
  setting : Nat
  counter : Nat
deriving DecidableEq, Repr

/-- R20: the owner of every slot, the token holder and the four leases. -/
structure ClaimTable where
  owner : Vector (Option Client) 256
  token : Option Client
  lease : Vector Lease 4
deriving DecidableEq, Repr

/-! ### Batch Contexts (chapter 3) -/

/-- The state of a batch context (section 3.2). -/
inductive BatchState where
  | free
  | opened
  | armed
  | releasing
deriving DecidableEq, Repr

/-- The target kind given at OPEN (R39). -/
inductive TargetKind where
  | next
  | absolute
deriving DecidableEq, Repr

/-- The policy given at OPEN (R39). -/
inductive Policy where
  | strict
  | slip
deriving DecidableEq, Repr

/-- A staged record. `lead` is the slot's lead when it was staged, which the max lead keeps for a
slot undefined since (R38). -/
structure Staged where
  slot : SlotNo
  value : Value
  lead : Nat
deriving DecidableEq, Repr

/-- A batch context (section 3.1). -/
structure Batch where
  state : BatchState
  id : Nat
  kind : TargetKind
  epoch : Epoch
  policy : Policy
  records : List Staged
  maxLead : Nat
  target : Epoch
  slipped : Bool
  count : Nat
  onTime : Nat
  late : Nat
  failed : Nat
  superseded : Nat
  dropped : Nat
  unresolved : Nat
deriving DecidableEq, Repr

/-- A FREE context: nothing is held (R36, R62). DESIGN CHOICE (assumption 23): the manual gives a FREE
context no field but its state; the id 0, the target spec NEXT with epoch 0, the policy STRICT, the max
lead, the target, the slipped flag and the counters that stand here are the model's. -/
def Batch.empty : Batch :=
  { state := .free, id := 0, kind := .next, epoch := 0, policy := .strict, records := [],
    maxLead := 0, target := 0, slipped := false, count := 0, onTime := 0, late := 0, failed := 0,
    superseded := 0, dropped := 0, unresolved := 0 }

/-- A batch as requests, records and events name it: its client and id (R37). -/
structure BatchRef where
  client : Client
  id : Nat
deriving DecidableEq, Repr

/-- R36, R37, R48: four contexts and a previous id for each client, and the seal list, oldest
first. -/
structure BatchTable where
  context : Vector (Vector Batch 4) 4
  previousId : Vector Nat 4
  sealList : List BatchRef
deriving DecidableEq, Repr

/-! ### Pending Store (chapter 4) -/

/-- The state of a pending record (section 4.2). -/
inductive RecordState where
  | waiting
  | deferred
  | released
deriving DecidableEq, Repr

/-- A pending record (section 4.1). -/
structure PendingRecord where
  slot : SlotNo
  value : Value
  target : Epoch
  dispatch : Epoch
  batch : BatchRef
  position : Nat
  state : RecordState
deriving DecidableEq, Repr

/-! ### Epoch Generator (chapter 5) -/

/-- The run state (section 5.1). -/
inductive RunState where
  | stopped
  | priming
  | running
  | waitTrigger
  | stopping
deriving DecidableEq, Repr

/-- The mode of START (R96). -/
inductive Mode where
  | free
  | triggered
deriving DecidableEq, Repr

/-- How far the epoch in progress has come past its window, as handed to the bus engines and the
dispatch queues (R91). -/
inductive WindowView where
  | shut
  | opened
  | closed
deriving DecidableEq, Repr

/-- The generator's fields (section 5.1), and the window moments it has handed on in the epoch in
progress. -/
structure Generator where
  run : RunState
  mode : Mode
  c : Epoch
  line : Nat
  lspan : Nat
  vspan : Nat
  wopen : Nat
  wclose : Nat
  edge : Edge
  latch : Bool
  overruns : Nat
  startEpoch : Epoch
  primeList : List SlotNo
  primesOutstanding : Nat
  issuer : Option Client
  window : WindowView
deriving DecidableEq, Repr

/-- R86: the generator after pin reset. -/
def Generator.reset : Generator :=
  { run := .stopped, mode := .free, c := 0, line := 0, lspan := 600, vspan := 1100, wopen := 16,
    wclose := 900, edge := .rising, latch := false, overruns := 0, startEpoch := 0,
    primeList := [], primesOutstanding := 0, issuer := none, window := .shut }

/-! ### Dispatch Queues (chapter 6) -/

/-- The kind of a queue entry (R110). -/
inductive EntryKind where
  | write
  | now
  | prime
  | probe
deriving DecidableEq, Repr

/-- Where an entry came from (section 6.1). A `record` is named by its batch and position. -/
inductive Origin where
  | record (batch : BatchRef) (position : Nat)
  /-- a WRITE entry that RESET_SCHEDULE detached from its record (R124) -/
  | detached
  | client (client : Client) (tag : Byte)
  | priming
deriving DecidableEq, Repr

/-- A queue entry (section 6.1). `slot` is none for a PROBE, `deadline` is present for a WRITE,
`onBus` is the state ON_BUS, and `discarded` is the report field. A PRIME entry that outlives its
priming is discarded too: it is not handed to the generator (R99, R124; assumption 12). Section 6.1
gives a PROBE no value and a WRITE or PRIME no report: DESIGN CHOICE (assumption 27), they are here 0 and
normal. -/
structure Entry where
  kind : EntryKind
  device : DeviceNo
  register : Half
  width : Nat
  order : ByteOrder
  value : Value
  slot : Option SlotNo
  deadline : Option Epoch
  late : Bool
  attempts : Nat
  origin : Origin
  discarded : Bool
  onBus : Bool
  stamp : Option Epoch
deriving DecidableEq, Repr

/-- R109: one queue per bus, oldest entry at the head, and each client's outstanding probes. -/
structure DispatchQueues where
  queue : Vector (List Entry) 2
  probes : Vector Nat 4
deriving DecidableEq, Repr

/-! ### Bus engines and device table (chapter 7) -/

/-- A device record (section 7.1). -/
structure Device where
  isPresent : Bool
  bus : BusNo
  address : BitVec 7
  size : Nat
  retries : Nat
deriving DecidableEq, Repr

/-- R127: a device record after pin reset. -/
def Device.absent : Device :=
  { isPresent := false, bus := 0, address := 0, size := 1, retries := 0 }

/-- A bus speed (section 7.1.2). -/
inductive Speed where
  | khz100
  | khz400
  | mhz1
deriving DecidableEq, Repr

/-- The state of a bus engine (section 7.2). -/
inductive EngineState where
  | idle
  | transfer
  | recovery
  | fault
deriving DecidableEq, Repr

/-- One item of an attempt or a recovery on the wires (R133, R134, R137). `receive` is a byte from the
target, with whether the engine acknowledges it, and `pulse` one clock pulse of a recovery. -/
inductive WireItem where
  | start
  | send (byte : Byte)
  | repeatedStart
  | receive (acknowledged : Bool)
  | stop
  | pulse
deriving DecidableEq, Repr

/-- R131: the transfer in progress, with what the engine read at its start. `wire` is a whole attempt
of it, each attempt beginning from its beginning (R133). -/
structure Transfer where
  device : DeviceNo
  register : Half
  limit : Nat
  made : Nat
  wire : List WireItem
deriving DecidableEq, Repr

/-- R131: a bus engine. `clock` is the speed of the transfer or recovery in progress (R130),
`stretching` says that a clock stretch is being measured (R136), `pulses` are the clock pulses of the
latest recovery (R137), and `sent` is what the engine has put on the wires since its latest transfer or
BUS_RECOVER began, as far as the attempts and recoveries that have ended (R133 to R137). -/
structure Engine where
  state : EngineState
  speed : Speed
  clock : Speed
  xfer : Option Transfer
  stretching : Bool
  stretchCount : Nat
  requester : Option Client
  pulses : Nat
  sent : List WireItem
deriving DecidableEq, Repr

/-- R131, R130: a bus engine after pin reset. -/
def Engine.reset : Engine :=
  { state := .idle, speed := .khz400, clock := .khz400, xfer := none, stretching := false,
    stretchCount := 0, requester := none, pulses := 0, sent := [] }

/-- The two engines and the device table. -/
structure Buses where
  engine : Vector Engine 2
  device : Vector Device 8
deriving DecidableEq, Repr

/-! ### Timing Outputs (chapter 8) -/

/-- The mode of an output program (section 1.4). -/
inductive OutputMode where
  | off
  | pulse
  | level
  | mark
deriving DecidableEq, Repr

/-- The polarity of an output program (section 1.4). -/
inductive Polarity where
  | activeHigh
  | activeLow
deriving DecidableEq, Repr

/-- A held program: the decoded live values of an output's two slots (R142). -/
structure Program where
  mode : OutputMode
  polarity : Polarity
  divisor : Nat
  phase : Nat
  rise : Nat
  fall : Nat
deriving DecidableEq, Repr

/-- A timing output (section 8.1). `high` is the pin level. -/
structure TimingOutput where
  program : Program
  selected : Bool
  active : Bool
  high : Bool
deriving DecidableEq, Repr

/-- R142: a timing output after pin reset. -/
def TimingOutput.reset : TimingOutput :=
  { program := { mode := .off, polarity := .activeHigh, divisor := 1, phase := 0, rise := 0,
                 fall := 0 },
    selected := false, active := false, high := false }

/-! ### Host ports and table arbiter (chapter 9) -/

/-- The framing lock of a port (R154). -/
inductive Framing where
  | undetermined
  | twoWire
  | fourWire
deriving DecidableEq, Repr

/-- The transfer state of a port (R153). -/
inductive PortState where
  | ready
  | working
deriving DecidableEq, Repr

/-- A host port (section 9.2). Besides the fields of that table: `judged` is the judgement made at
the code byte of the two-wire write in progress (R156: true is acknowledged), `frame` is the copy of
the response buffer taken at the start of the four-wire frame in progress, and none outside a frame
(R158), `shown` and `shownBits` are the whole bytes and the further bits that the port last put on its
data line (R157 to R159), `underWay` says that a two-wire transaction under way at the end of
start-up is ignored (R178), and `awaitsFall` that HSEL_N was low then and has not risen and fallen again
since (R154, R178). -/
structure Port where
  lock : Framing
  state : PortState
  request : Option (List Byte)
  response : List Byte
  strap : BitVec 7
  judged : Option Bool
  frame : Option (List Byte)
  shown : List Byte
  shownBits : List Bool
  underWay : Bool
  awaitsFall : Bool
deriving DecidableEq, Repr

/-- R153: a host port after pin reset: status NONE (03h), tag 00h, code 00h. -/
def Port.reset : Port :=
  { lock := .undetermined, state := .ready, request := none, response := [0x03, 0x00, 0x00],
    strap := 0x58, judged := none, frame := none, shown := [], shownBits := [], underWay := false,
    awaitsFall := false }

/-- R153: the four ports and the arbiter's pointer and port in service. -/
structure HostSide where
  port : Vector Port 4
  pointer : Client
  inService : Option Client
deriving DecidableEq, Repr

/-! ### Event Queues (chapter 10) -/

/-- The outcome of a batch (R52, R59). -/
inductive BatchOutcome where
  | applied
  | degraded
  | reset
deriving DecidableEq, Repr

/-- The outcome of a direct write or a probe (R17, R122). -/
inductive EntryOutcome where
  | done
  | failed
  | superseded
  | dropped
deriving DecidableEq, Repr

/-- Why a SCHEDULE_STATE is offered (R106). -/
inductive Reason where
  | primed
  | primeFailed
  | stopRequest
  | stopComplete
  | reset
deriving DecidableEq, Repr

/-- The kinds of event with their payload fields (section 10.2, R176). -/
inductive Event where
  | batchDone (id : Nat) (outcome : BatchOutcome) (target : Epoch)
      (onTime late failed discarded : Nat)
  | batchAborted (id : Nat)
  | writeDone (tag : Byte) (slot : SlotNo) (outcome : EntryOutcome)
  | probeResult (tag : Byte) (device : DeviceNo) (outcome : EntryOutcome) (value : Value)
  | claimsLapsed (count : Nat) (token : Bool)
  | claimsRevoked (revoker : Client) (count : Nat)
  | scheduleState (run : RunState) (mode : Mode) (reason : Reason) (cause : Option Client)
      (epoch : Epoch)
  | primeFailed (slot : SlotNo)
  | triggerOverrun (epoch : Epoch) (count : Nat)
  | busFault (bus : BusNo) (faulted : Bool)
  | epochMark (epoch : Epoch)
  | overflow (lost : Nat)
deriving DecidableEq, Repr

/-- A kept event record (section 10.1). -/
structure EventRecord where
  event : Event
  sequence : Byte
  stamp : Epoch
deriving DecidableEq, Repr

/-- A client's event queue with its subscriptions and mark counter (section 10.1). -/
structure EventQueue where
  records : List EventRecord
  lost : Nat
  nextSequence : Byte
  sched : Bool
  bus : Bool
  mark : Bool
  divider : Nat
  counter : Nat
deriving DecidableEq, Repr

/-- Section 10.1: an event queue after pin reset. -/
def EventQueue.reset : EventQueue :=
  { records := [], lost := 0, nextSequence := 0, sched := false, bus := false, mark := false,
    divider := 0, counter := 0 }

/-! ### The whole part -/

/-- Where the part stands against RESET_N and the start-up interval (R177, R178). -/
inductive Phase where
  /-- RESET_N low, or the power-up hold -/
  | held
  /-- the start-up interval of 4096 REFCLK cycles -/
  | startup
  /-- after the start-up interval -/
  | operating
deriving DecidableEq, Repr

/-- The part's whole state. `draws` counts the free values drawn so far (the model's own field), and
`pending` is the queue of commands that wait, first in, first out. -/
structure State where
  phase : Phase
  slots : Vector Slot 256
  claims : ClaimTable
  batches : BatchTable
  store : List PendingRecord
  gen : Generator
  queues : DispatchQueues
  buses : Buses
  outputs : Vector TimingOutput 12
  host : HostSide
  events : Vector EventQueue 4
  draws : Nat
  pending : List Instr
deriving DecidableEq, Repr

/-- The slot records after pin reset (R19): 232 general slots, then edge and form slot in turn. -/
def resetSlots : Vector Slot 256 :=
  Vector.replicate 232 Slot.undefined ++
    (#v[Slot.edgeSlot, Slot.formSlot, Slot.edgeSlot, Slot.formSlot, Slot.edgeSlot, Slot.formSlot,
        Slot.edgeSlot, Slot.formSlot, Slot.edgeSlot, Slot.formSlot, Slot.edgeSlot, Slot.formSlot,
        Slot.edgeSlot, Slot.formSlot, Slot.edgeSlot, Slot.formSlot, Slot.edgeSlot, Slot.formSlot,
        Slot.edgeSlot, Slot.formSlot, Slot.edgeSlot, Slot.formSlot, Slot.edgeSlot, Slot.formSlot]
      : Vector Slot 24)

/-- R35: the Claim Table after pin reset. -/
def resetClaims : ClaimTable :=
  { owner := Vector.replicate 256 none, token := none,
    lease := Vector.replicate 4 { setting := 0, counter := 0 } }

/-- R62: the Batch Contexts after pin reset. -/
def resetBatches : BatchTable :=
  { context := Vector.replicate 4 (Vector.replicate 4 Batch.empty),
    previousId := Vector.replicate 4 0, sealList := [] }

/-- R126: the Dispatch Queues after pin reset. -/
def resetQueues : DispatchQueues :=
  { queue := Vector.replicate 2 [], probes := Vector.replicate 4 0 }

/-- R127, R131: the engines and the device table after pin reset. -/
def resetBuses : Buses :=
  { engine := Vector.replicate 2 Engine.reset, device := Vector.replicate 8 Device.absent }

/-- R153: the ports and the arbiter after pin reset. -/
def resetHost : HostSide :=
  { port := Vector.replicate 4 Port.reset, pointer := 0, inService := none }

/-- The part right after reset: every block at its pin-reset values, the start-up interval over,
every strap at 00b (DESIGN CHOICE, assumptions 1 and 2). -/
def State.reset : State :=
  { phase := .operating, slots := resetSlots, claims := resetClaims, batches := resetBatches,
    store := [], gen := Generator.reset, queues := resetQueues, buses := resetBuses,
    outputs := Vector.replicate 12 TimingOutput.reset, host := resetHost,
    events := Vector.replicate 4 EventQueue.reset, draws := 0, pending := [] }

/-! ### How a step could stop -/

/-- The part has no event that stops it, and no command has an effect the manual leaves without a
meaning: there is no reason for a fault, and no meaning can answer with one. Safe. -/
inductive Fault where
deriving DecidableEq, Repr

/-- Why a command could be without a meaning. -/
inductive Refusal where
  /-- Raised by `exec` alone, for a command that has no meaning yet; no arm raises it now. Safe. -/
  | notModelled (mnemonic : String)
deriving DecidableEq, Repr

end Sys2Proof.Machine
end

