-- ==== Sys2Proof/Machine/Flags.lean ====
section
/-! DEFINITION. The derived fields and conditions of the manual: what is computed from the state
whenever it is read or tested, and never stored. -/

namespace Sys2Proof.Machine

open Sys2Proof

/-- The four clients, in the order the manual offers to them (R168). -/
def allClients : List Client := [0, 1, 2, 3]

/-- The two buses. -/
def allBuses : List BusNo := [0, 1]

/-! ### Slots -/

/-- The slot record of slot `i`. -/
def State.slot (s : State) (i : SlotNo) : Slot := s.slots[i.val]

/-- Whether slot `i` is one of the local output slots 232 to 255 (R9). -/
def isLocal (i : SlotNo) : Bool := decide (232 ≤ i.val)

/-- Whether slot `i` is a form slot: 233 + 2k (section 1.4). -/
def isForm (i : SlotNo) : Bool := isLocal i && decide (i.val % 2 = 1)

/-- The owner of slot `i` (R20). -/
def State.owner (s : State) (i : SlotNo) : Option Client := s.claims.owner[i.val]

/-- R21: the ownership check passes when the slot has no owner or the requester is the owner. -/
def State.heldByOther (s : State) (k : Client) (i : SlotNo) : Bool :=
  match s.owner i with
  | none => false
  | some j => j != k

/-- R1: the pending count of slot `i`. -/
def State.pendingCount (s : State) (i : SlotNo) : Nat :=
  s.store.countP (fun r => r.slot == i)

/-- The queue of bus `b`, oldest entry at the head. -/
def State.queue (s : State) (b : BusNo) : List Entry := s.queues.queue[b.val]

/-- R1: the queued count of slot `i`; PROBE entries name no slot and are not counted. -/
def State.queuedCount (s : State) (i : SlotNo) : Nat :=
  (s.queue 0).countP (fun e => e.slot == some i) + (s.queue 1).countP (fun e => e.slot == some i)

/-! ### Batches -/

/-- Context `n` of client `k`. -/
def State.context (s : State) (k : Client) (n : Fin 4) : Batch := (s.batches.context[k.val])[n.val]

/-- The lowest-numbered context of client `k` with property `p`. -/
def State.findContext (s : State) (k : Client) (p : Batch → Bool) : Option (Fin 4) :=
  ([0, 1, 2, 3] : List (Fin 4)).find? (fun n => p (s.context k n))

/-- The OPEN context of client `k` (R36: at most one). -/
def State.openContext (s : State) (k : Client) : Option (Fin 4) :=
  s.findContext k (fun b => b.state == .opened)

/-- Whether a context is ARMED or RELEASING. -/
def Batch.isSealed (b : Batch) : Bool := b.state == .armed || b.state == .releasing

/-- The ARMED or RELEASING context with the id of `r` (R37: at most one). -/
def State.sealedContext (s : State) (r : BatchRef) : Option (Fin 4) :=
  s.findContext r.client (fun b => b.isSealed && b.id == r.id)

/-- Whether an OPEN batch of any client holds a staged record for slot `i` (R1). -/
def State.isStaged (s : State) (i : SlotNo) : Bool :=
  allClients.any (fun k => ([0, 1, 2, 3] : List (Fin 4)).any (fun n =>
    (s.context k n).state == .opened && (s.context k n).records.any (fun r => r.slot == i)))

/-- R1: a slot is busy when its pending count or its queued count is nonzero, or an OPEN batch holds
a staged record for it. -/
def State.busy (s : State) (i : SlotNo) : Bool :=
  s.pendingCount i != 0 || s.queuedCount i != 0 || s.isStaged i

/-- The largest lead of the slots staged; 0 when the list is empty (R38). -/
def maxLeadOf (records : List Staged) : Nat := records.foldl (fun m r => max m r.lead) 0

/-! ### Devices and buses -/

/-- The record of device `d`. -/
def State.device (s : State) (d : DeviceNo) : Device := s.buses.device[d.val]

/-- The engine of bus `b`. -/
def State.engine (s : State) (b : BusNo) : Engine := s.buses.engine[b.val]

/-- The bus of a slot's device; none for a local slot. -/
def State.slotBus (s : State) (i : SlotNo) : Option BusNo :=
  (s.slot i).device.map (fun d => (s.device d).bus)

/-- R127: a device is in use while a DEFINED general slot names it or an entry on a queue names it. -/
def State.inUse (s : State) (d : DeviceNo) : Bool :=
  s.slots.toList.any (fun r => r.defined && r.device == some d) ||
    (s.queue 0).any (fun e => e.device == d) || (s.queue 1).any (fun e => e.device == d)

/-- R72: the deferred set of bus `b`. The store lists its records in ascending seal order and, within
a batch, ascending position, because SEAL appends a batch's records in staging order (R47). -/
def State.deferredSet (s : State) (b : BusNo) : List PendingRecord :=
  s.store.filter (fun r => r.state == .deferred && s.slotBus r.slot == some b)

/-- R136: the limit is exceeded: the stretch count of a stretch in progress has reached 2. -/
def Engine.limitExceeded (e : Engine) : Bool := e.stretching && e.stretchCount == 2

/-- What the part does with a line that it may drive: DSCL and DSDA of a bus (section 7.2, last column),
and HDO of a port, where released is high impedance (R158). -/
inductive LineDrive where
  | released
  | driven
deriving DecidableEq, Repr

/-- Section 7.2: an engine drives both lines in TRANSFER and RECOVERY and releases them in IDLE and
FAULT (R138). -/
def EngineState.lines : EngineState → LineDrive
  | .idle => .released
  | .transfer => .driven
  | .recovery => .driven
  | .fault => .released

/-- R138, R141, R177: both lines of bus `b`: driven by its engine, and released while the part is held
in reset and through start-up (section 12.1). -/
def State.busLines (s : State) (b : BusNo) : LineDrive :=
  match s.phase with
  | .held => .released
  | .startup => .released
  | .operating => (s.engine b).state.lines

/-! ### The schedule -/

/-- Whether an epoch is in progress (section 5.1). -/
def RunState.inEpoch : RunState → Bool
  | .running => true
  | .stopping => true
  | .stopped => false
  | .priming => false
  | .waitTrigger => false

/-- Note of section 5.1: the window is open while the run state is RUNNING or STOPPING and the line
lies within W_open to W_close − 1. -/
def Generator.windowIsOpen (g : Generator) : Bool :=
  g.run.inEpoch && decide (g.wopen ≤ g.line) && decide (g.line < g.wclose)

/-- R132: an engine may start a transfer while the schedule is STOPPED or PRIMING, or in an epoch
whose window open has been handed to it and whose window close has not. -/
def Generator.startAllowed (g : Generator) : Bool :=
  match g.run with
  | .stopped => true
  | .priming => true
  | .running => g.window == .opened
  | .stopping => g.window == .opened
  | .waitTrigger => false

/-- R91: the window open of the epoch in progress is due at line W_open. -/
def Generator.openDue (g : Generator) : Bool :=
  g.run.inEpoch && g.window == .shut && g.line == g.wopen

/-- R91: the window close of the epoch in progress is due at line W_close, or at the end of the last
line when W_close equals VSPAN. -/
def Generator.closeDue (g : Generator) : Bool :=
  g.run.inEpoch && g.window == .opened &&
    (g.line == g.wclose || (g.wclose == g.vspan && g.line + 1 == g.vspan))

/-- R74: the late flag of a record refilled for epoch `d`: clear only when `d` is the epoch in
progress and its window has not yet closed. DESIGN CHOICE (assumption 26): an epoch `d` that
ended before, by STOP NOW or otherwise, and is in progress again counts as the epoch in progress, with
the window of this time. -/
def Generator.lateOnRefill (g : Generator) (d : Epoch) : Bool :=
  !(g.run.inEpoch && g.c == d && g.window != .closed)

/-! ### Ports and attention -/

/-- The port of client `k`. -/
def State.port (s : State) (k : Client) : Port := s.host.port[k.val]

/-- R154, R158: HDO_k is driven through a four-wire frame, from a falling edge of HSEL_N_k to the next
rising edge, and at high impedance whenever HSEL_N_k is high. An UNDETERMINED port and a TWO_WIRE one
keep it so. -/
def Port.dataOut (p : Port) : LineDrive :=
  match p.lock with
  | .undetermined => .released
  | .twoWire => .released
  | .fourWire => if p.frame.isSome then .driven else .released

/-- R158, R177, R178: HDO_k: as its port has it, and at high impedance while the part is held in reset
and through start-up. -/
def State.hostDataOut (s : State) (k : Client) : LineDrive :=
  match s.phase with
  | .held => .released
  | .startup => .released
  | .operating => (s.port k).dataOut

/-- R163: a port is waiting while it is WORKING and its request has not been granted. -/
def State.isWaiting (s : State) (k : Client) : Bool :=
  (s.port k).state == .working && s.host.inService != some k

/-- The event queue of client `k`. -/
def State.eventQueue (s : State) (k : Client) : EventQueue := s.events[k.val]

/-- R171: ATTN_N_k is driven low while client k's queue holds a record or its lost count is
nonzero; otherwise it is released. -/
def State.attentionLow (s : State) (k : Client) : Bool :=
  !(s.eventQueue k).records.isEmpty || (s.eventQueue k).lost != 0

end Sys2Proof.Machine
end

