-- ==== Sys2Proof/Machine/Operands.lean ====
section
/-! DEFINITION. The operand forms of the manual: status codes, argument codes, the DEFINE_SLOT
descriptor, admissible values, the bytes of responses and event records, and the bytes of attempts
on the downstream buses. -/

namespace Sys2Proof.Machine

open Sys2Proof

/-! ### Status codes (section 11.5) -/

/-- A response status. -/
inductive Status where
  | ok
  | accepted
  | working
  | none
  | badCode
  | badLength
  | badValue
  | noToken
  | wrongState
  | undefinedSlot
  | fixedSlot
  | wrongClass
  | outOfRange
  | notOwner
  | heldBy
  | slotBusy
  | noBatch
  | batchOpen
  | noContext
  | batchFull
  | empty
  | tooLate
  | outOfHorizon
  | conflict
  | storeFull
  | queueFull
  | probeLimit
  | noDevice
  | deviceBusy
  | duplicateAddress
  | badGeometry
deriving DecidableEq, Repr

/-- The code of a status (section 11.5). -/
def Status.code : Status → Byte
  | .ok => 0x00
  | .accepted => 0x01
  | .working => 0x02
  | .none => 0x03
  | .badCode => 0x10
  | .badLength => 0x11
  | .badValue => 0x12
  | .noToken => 0x13
  | .wrongState => 0x14
  | .undefinedSlot => 0x20
  | .fixedSlot => 0x21
  | .wrongClass => 0x22
  | .outOfRange => 0x23
  | .notOwner => 0x24
  | .heldBy => 0x25
  | .slotBusy => 0x26
  | .noBatch => 0x30
  | .batchOpen => 0x31
  | .noContext => 0x32
  | .batchFull => 0x33
  | .empty => 0x34
  | .tooLate => 0x35
  | .outOfHorizon => 0x36
  | .conflict => 0x37
  | .storeFull => 0x38
  | .queueFull => 0x40
  | .probeLimit => 0x41
  | .noDevice => 0x42
  | .deviceBusy => 0x43
  | .duplicateAddress => 0x44
  | .badGeometry => 0x45

/-- What a served request answers: a status and a payload (R175). -/
structure Reply where
  status : Status
  payload : List Byte := []
deriving DecidableEq, Repr

/-- Section 11.3: the bytes of a response. -/
def responseBytes (reply : Reply) (tag code : Byte) : List Byte :=
  [reply.status.code, tag, code] ++ reply.payload

/-! ### Argument codes (section 11.1) -/

/-- The slot a byte names. -/
def slotNo (b : Byte) : SlotNo := ⟨b.toNat, b.isLt⟩

/-- The bus a byte names; none above 1. -/
def busNo (b : Byte) : Option BusNo :=
  if h : b.toNat < 2 then some ⟨b.toNat, h⟩ else none

/-- The device a byte names; none above 7. -/
def deviceNo (b : Byte) : Option DeviceNo :=
  if h : b.toNat < 8 then some ⟨b.toNat, h⟩ else none

/-- The client a byte names; none above 3. -/
def clientNo (b : Byte) : Option Client :=
  if h : b.toNat < 4 then some ⟨b.toNat, h⟩ else none

def targetKindOf (b : Byte) : Option TargetKind :=
  if b = 0x00 then some .next else if b = 0x01 then some .absolute else none

def policyOf (b : Byte) : Option Policy :=
  if b = 0x00 then some .strict else if b = 0x01 then some .slip else none

def modeOf (b : Byte) : Option Mode :=
  if b = 0x00 then some .free else if b = 0x01 then some .triggered else none

/-- The STOP options (R101). -/
inductive StopOption where
  | atEnd
  | now
deriving DecidableEq, Repr

def stopOptionOf (b : Byte) : Option StopOption :=
  if b = 0x00 then some .atEnd else if b = 0x01 then some .now else none

def edgeOf (b : Byte) : Option Edge :=
  if b = 0x00 then some .rising else if b = 0x01 then some .falling else none

def orderOf (b : Byte) : Option ByteOrder :=
  if b = 0x00 then some .msbFirst else if b = 0x01 then some .lsbFirst else none

def speedOf (b : Byte) : Option Speed :=
  if b = 0x00 then some .khz100
  else if b = 0x01 then some .khz400
  else if b = 0x02 then some .mhz1 else none

/-- Whether a register width is 1 to 4 bytes. -/
def widthOk (n : Nat) : Bool := decide (1 ≤ n) && decide (n ≤ 4)

/-! ### State codes in payloads (section 11.3) -/

def orderCode : ByteOrder → Byte
  | .msbFirst => 0x00
  | .lsbFirst => 0x01

def classCode : SlotClass → Byte
  | .epoch => 0x00
  | .immediate => 0x01
  | .standby => 0x02

def liveStateCode : LiveState → Byte
  | .valid => 0x00
  | .uncertain => 0x01

def runCode : RunState → Byte
  | .stopped => 0x00
  | .priming => 0x01
  | .running => 0x02
  | .waitTrigger => 0x03
  | .stopping => 0x04

def modeCode : Mode → Byte
  | .free => 0x00
  | .triggered => 0x01

def batchStateCode : BatchState → Byte
  | .free => 0x00
  | .opened => 0x01
  | .armed => 0x02
  | .releasing => 0x03

def kindCode : EntryKind → Byte
  | .write => 0x01
  | .now => 0x02
  | .prime => 0x03
  | .probe => 0x04

def engineCode : EngineState → Byte
  | .idle => 0x00
  | .transfer => 0x01
  | .recovery => 0x02
  | .fault => 0x03

def targetKindCode : TargetKind → Byte
  | .next => 0x00
  | .absolute => 0x01

def policyCode : Policy → Byte
  | .strict => 0x00
  | .slip => 0x01

def speedCode : Speed → Byte
  | .khz100 => 0x00
  | .khz400 => 0x01
  | .mhz1 => 0x02

def edgeCode : Edge → Byte
  | .rising => 0x00
  | .falling => 0x01

/-- R175: a client that may be absent; FFh stands for none. -/
def clientByte : Option Client → Byte
  | none => 0xFF
  | some k => byteOf k.val

/-- R175: a device that may be absent; FFh stands for LOCAL. -/
def deviceByte : Option DeviceNo → Byte
  | none => 0xFF
  | some d => byteOf d.val

/-! ### Admissible values (R4, R10) -/

/-- The divisor a divisor code selects: 1, 2, 4, 8 or 16 (section 1.4). -/
def divisorOf (code : Nat) : Nat := 2 ^ code

/-- R10: the field test of a form slot's value. -/
def formOk (v : Value) : Bool :=
  v.extractLsb' 16 16 == 0#16 && v.extractLsb' 11 1 == 0#1 && v.extractLsb' 5 3 == 0#3 &&
    v.extractLsb' 2 2 == 0#2 && decide ((v.extractLsb' 8 3).toNat ≤ 4) &&
    decide ((v.extractLsb' 12 4).toNat < divisorOf (v.extractLsb' 8 3).toNat)

/-- R4: a value is admissible within the slot's limits, and for form slots by R10 as well. -/
def State.admissible (s : State) (i : SlotNo) (v : Value) : Bool :=
  decide ((s.slot i).min.toNat ≤ v.toNat) && decide (v.toNat ≤ (s.slot i).max.toNat) &&
    (!isForm i || formOk v)

/-! ### The DEFINE_SLOT descriptor (section 11.2) -/

/-- The descriptor fields a DEFINE_SLOT carries in its device, format and kind bytes. -/
structure Descriptor where
  device : DeviceNo
  width : Nat
  order : ByteOrder
  cls : SlotClass
  lead : Nat
  prime : Bool
deriving DecidableEq, Repr

/-- The byte order of bits 5 to 4 of the format byte. -/
def formatOrder (format : Byte) : Option ByteOrder :=
  match (format.extractLsb' 4 2).toNat with
  | 0 => some .msbFirst
  | 1 => some .lsbFirst
  | _ => none

/-- The class of bits 1 to 0 of the kind byte. -/
def kindClass (kind : Byte) : Option SlotClass :=
  match (kind.extractLsb' 0 2).toNat with
  | 0 => some .epoch
  | 1 => some .immediate
  | 2 => some .standby
  | _ => none

/-- The prime flag of bits 6 to 5 of the kind byte. -/
def kindPrime (kind : Byte) : Option Bool :=
  match (kind.extractLsb' 5 2).toNat with
  | 0 => some false
  | 1 => some true
  | _ => none

/-- R12 step 6: the descriptor of a DEFINE_SLOT; none when it is out of range or inconsistent. -/
def descriptorOf (device format kind : Byte) (min max initial : Value) : Option Descriptor := do
  let d ← deviceNo device
  let order ← formatOrder format
  let cls ← kindClass kind
  let prime ← kindPrime kind
  let width := (format.extractLsb' 0 3).toNat
  let lead := (kind.extractLsb' 2 3).toNat
  let reserved := format.extractLsb' 6 2 == 0#2 && format.extractLsb' 3 1 == 0#1 &&
    kind.extractLsb' 7 1 == 0#1
  if widthOk width && reserved && decide (lead ≤ 3) && (lead == 0 || cls == .epoch) &&
      decide (min.toNat ≤ max.toNat) && decide (max.toNat ≤ 2 ^ (8 * width) - 1) &&
      decide (min.toNat ≤ initial.toNat) && decide (initial.toNat ≤ max.toNat) then
    some { device := d, width := width, order := order, cls := cls, lead := lead, prime := prime }
  else none

/-- R12 step 8, R121 step 3: a device with 1-byte register addresses takes 0 to 255. -/
def registerFits (d : Device) (register : Half) : Bool :=
  !(d.size == 1 && decide (255 < register.toNat))

/-! ### Output programs (section 1.4) -/

/-- The program of an output's edge and form slot values (R143 step 1). -/
def programOf (edge form : Value) : Program :=
  { mode := match (form.extractLsb' 0 2).toNat with
      | 0 => .off
      | 1 => .pulse
      | 2 => .level
      | _ => .mark
    polarity := if form.extractLsb' 4 1 == 0#1 then .activeHigh else .activeLow
    divisor := divisorOf (form.extractLsb' 8 3).toNat
    phase := (form.extractLsb' 12 4).toNat
    rise := (edge.extractLsb' 16 16).toNat
    fall := (edge.extractLsb' 0 16).toNat }

/-! ### Long read payloads (section 11.4) -/

/-- READ_SLOT, 28 bytes (R15). -/
def slotPayload (r : Slot) (owner : Option Client) (pendingCount queuedCount : Nat) : List Byte :=
  [flagByte r.defined, deviceByte r.device] ++ halfBytes r.register ++
    [byteOf r.width, orderCode r.order, classCode r.cls, byteOf r.lead] ++
    valueBytes r.min ++ valueBytes r.max ++ [flagByte r.prime] ++ valueBytes r.live ++
    [liveStateCode r.liveState, flagByte r.applied.isSome] ++ halfBytes (r.applied.getD 0) ++
    [clientByte owner, byteOf pendingCount, byteOf queuedCount]

/-- READ_BATCH, 17 bytes (R56). -/
def batchPayload (b : Batch) (position : Nat) : List Byte :=
  [batchStateCode b.state, targetKindCode b.kind] ++ halfBytes b.epoch ++
    [policyCode b.policy, byteOf (if b.state == .opened then b.records.length else b.count),
     byteOf b.maxLead] ++ halfBytes b.target ++
    [flagByte b.slipped, byteOf position, byteOf b.onTime, byteOf b.late, byteOf b.failed,
     byteOf b.superseded, byteOf b.dropped, byteOf b.unresolved]

/-- READ_SCHEDULE, 22 bytes (R108). -/
def schedulePayload (g : Generator) (token : Option Client) (inUse : Nat) : List Byte :=
  [runCode g.run, modeCode g.mode] ++ halfBytes g.c ++ countBytes g.line ++
    [flagByte g.windowIsOpen, clientByte token, flagByte g.latch] ++ countBytes g.overruns ++
    [byteOf inUse, byteOf g.primesOutstanding] ++ countBytes g.lspan ++ countBytes g.vspan ++
    countBytes g.wopen ++ countBytes g.wclose ++ [edgeCode g.edge]

/-- A READ_BUS device entry, 3 bytes (section 11.3). -/
def deviceEntry (d : DeviceNo) (r : Device) (inUse : Bool) : List Byte :=
  [byteOf d.val, byteOf r.address.toNat,
   byteOf (r.retries % 4 + (if r.size == 2 then 0x10 else 0) + (if inUse then 0x80 else 0))]

/-- A 16-bit field with bit k from the k-th flag of a list (R175: READ_OUTPUTS). -/
def flagField (flags : List Bool) : Nat :=
  match flags with
  | [] => 0
  | b :: rest => (if b then 1 else 0) + 2 * flagField rest

/-- SUBSCRIBE's set byte: bit 0 SCHED, bit 1 BUS, bit 2 MARK. -/
def setByte (q : EventQueue) : Byte := byteOf (flagField [q.sched, q.bus, q.mark])

/-! ### Event records (R176) -/

def Event.kindByte : Event → Byte
  | .batchDone .. => 0x01
  | .batchAborted .. => 0x02
  | .writeDone .. => 0x03
  | .probeResult .. => 0x04
  | .claimsLapsed .. => 0x05
  | .claimsRevoked .. => 0x06
  | .scheduleState .. => 0x07
  | .primeFailed .. => 0x08
  | .triggerOverrun .. => 0x09
  | .busFault .. => 0x0A
  | .epochMark .. => 0x0B
  | .overflow .. => 0x0F

def batchOutcomeCode : BatchOutcome → Byte
  | .applied => 0x00
  | .degraded => 0x01
  | .reset => 0x02

def entryOutcomeCode : EntryOutcome → Byte
  | .done => 0x00
  | .failed => 0x01
  | .superseded => 0x02
  | .dropped => 0x03

def reasonCode : Reason → Byte
  | .primed => 0x00
  | .primeFailed => 0x01
  | .stopRequest => 0x02
  | .stopComplete => 0x03
  | .reset => 0x04

/-- The named payload bytes of an event; the bytes after them are 00h. -/
def Event.fields : Event → List Byte
  | .batchDone id outcome target onTime late failed discarded =>
      [byteOf id, batchOutcomeCode outcome] ++ halfBytes target ++
        [byteOf onTime, byteOf late, byteOf failed, byteOf discarded]
  | .batchAborted id => [byteOf id, 0x01]
  | .writeDone tag slot outcome => [tag, byteOf slot.val, entryOutcomeCode outcome]
  | .probeResult tag device outcome value =>
      [tag, byteOf device.val, entryOutcomeCode outcome, 0x00] ++ valueBytes value
  | .claimsLapsed count token => countBytes count ++ [flagByte token]
  | .claimsRevoked revoker count => byteOf revoker.val :: countBytes count
  | .scheduleState run mode reason cause epoch =>
      [runCode run, modeCode mode, reasonCode reason, clientByte cause] ++ halfBytes epoch
  | .primeFailed slot => [byteOf slot.val]
  | .triggerOverrun epoch count => halfBytes epoch ++ countBytes count
  | .busFault bus faulted => [byteOf bus.val, flagByte faulted]
  | .epochMark epoch => halfBytes epoch
  | .overflow lost => [byteOf lost]

/-- The first `n` bytes of a list, with 00h beyond its end (R157, R158, R176). -/
def padTo (n : Nat) (bytes : List Byte) : List Byte :=
  bytes.take n ++ List.replicate (n - bytes.length) 0x00

/-- The 12 bytes of an event record (R176). -/
def recordBytes (r : EventRecord) : List Byte :=
  [r.event.kindByte, r.sequence] ++ halfBytes r.stamp ++ padTo 8 r.event.fields

/-! ### Bytes on the downstream buses (R5, R133, R134) -/

/-- The bytes a write sends for a value of `width` bytes in the given order (R5). -/
def wireBytes (width : Nat) (order : ByteOrder) (v : Value) : List Byte :=
  let msb := (valueBytes v).drop (4 - width)
  match order with
  | .msbFirst => msb
  | .lsbFirst => msb.reverse

/-- The value of bytes taken most significant first, upper bytes 0. -/
def valueOfBytes (bytes : List Byte) : Value :=
  bytes.foldl (fun v b => v.shiftLeft 8 ||| b.zeroExtend 32) 0

/-- R122: the value of the bytes a probe read, in the order received. -/
def probeValue (order : ByteOrder) (bytes : List Byte) : Value :=
  match order with
  | .msbFirst => valueOfBytes bytes
  | .lsbFirst => valueOfBytes bytes.reverse

/-- R133 step 3: the register address in 1 or 2 bytes, most significant first. -/
def registerBytes (size : Nat) (register : Half) : List Byte :=
  if size = 2 then halfBytes register else [register.extractLsb' 0 8]

/-- The address byte: the 7-bit target address and the direction bit (R133, R134). -/
def addressByte (address : BitVec 7) (read : Bool) : Byte := address ++ BitVec.ofBool read

/-- R134 step 6: the engine acknowledges every byte read but the last. -/
def receiveItems : Nat → List WireItem
  | 0 => []
  | 1 => [.receive false]
  | n + 2 => .receive true :: receiveItems (n + 1)

/-- R133, R134: what each attempt of a transfer puts on the wires, for the head entry and the
entries coalesced with it. -/
def attemptWire (d : Device) (head : Entry) (run : List Entry) : List WireItem :=
  let opening := [WireItem.start, .send (addressByte d.address false)] ++
    (registerBytes d.size head.register).map .send
  match head.kind with
  | .probe => opening ++ [.repeatedStart, .send (addressByte d.address true)] ++
      receiveItems head.width ++ [.stop]
  | _ => opening ++
      (head :: run).flatMap (fun e => (wireBytes e.width e.order e.value).map .send) ++ [.stop]

/-- Whether an item is a byte that the engine sends and a target acknowledges or not (R135). -/
def WireItem.isSend : WireItem → Bool
  | .send _ => true
  | _ => false

/-- R135: an attempt as far as its sent byte number `n`, and then the STOP. -/
def cutAfter : (n : Nat) → List WireItem → List WireItem
  | _, [] => [.stop]
  | 0, .send byte :: _ => [.send byte, .stop]
  | n + 1, .send byte :: rest => .send byte :: cutAfter n rest
  | n, item :: rest => item :: cutAfter n rest

/-- R135: what an attempt puts on the wires when its sent byte number `n` is not acknowledged. A number
beyond the last byte sent stands for that byte (assumption 18). -/
def nackedWire (n : Nat) (wire : List WireItem) : List WireItem :=
  cutAfter (min n (wire.countP (·.isSend) - 1)) wire

/-- R137: the pulses of a recovery on the wires. -/
def pulseItems (n : Nat) : List WireItem := List.replicate n .pulse

/-- The first `n` bits of a byte on a data line, most significant first (R158). -/
def topBits (n : Nat) (b : Byte) : List Bool := (List.range n).map b.getMsbD

/-- R115: the longest run of entries behind the head that share its transfer. `entries` and `bytes`
count what the run holds so far, the head included, and `next` is the register address that
continues it. -/
def coalescedRun (head : Entry) : List Entry → (entries bytes next : Nat) → List Entry
  | [], _, _, _ => []
  | e :: rest, entries, bytes, next =>
    if e.kind != .probe && head.kind != .probe && e.device == head.device &&
        e.order == head.order && e.register.toNat == next &&
        decide (entries + 1 ≤ 8) && decide (bytes + e.width ≤ 16) then
      e :: coalescedRun head rest (entries + 1) (bytes + e.width) (next + e.width)
    else []

/-- R115: the entries that a transfer begun at the head carries besides the head. -/
def runBehind (head : Entry) (rest : List Entry) : List Entry :=
  coalescedRun head rest 1 head.width (head.register.toNat + head.width)

end Sys2Proof.Machine
end

