-- ==== Sys2Proof/Machine/Ops.lean ====
section
/-! DEFINITION. The named operations over the state that every family shares: the updates of the
tables, offering event records, the arbiter's grant and the end of a service. -/

namespace Sys2Proof.Machine

open Sys2Proof

/-! ### Updates of the tables -/

/-- Slot `i` becomes `r`. -/
def State.setSlot (s : State) (i : SlotNo) (r : Slot) : State :=
  { s with slots := put s.slots i r }

/-- The owner entry of slot `i` becomes `o`. -/
def State.setOwner (s : State) (i : SlotNo) (o : Option Client) : State :=
  { s with claims := { s.claims with owner := put s.claims.owner i o } }

/-- The token holder entry becomes `t`. -/
def State.setToken (s : State) (t : Option Client) : State :=
  { s with claims := { s.claims with token := t } }

/-- Client k's lease becomes `l`. -/
def State.setLease (s : State) (k : Client) (l : Lease) : State :=
  { s with claims := { s.claims with lease := put s.claims.lease k l } }

/-- Client k's lease. -/
def State.lease (s : State) (k : Client) : Lease := s.claims.lease[k.val]

/-- Context `n` of client `k` becomes `b`. -/
def State.setContext (s : State) (k : Client) (n : Fin 4) (b : Batch) : State :=
  { s with batches :=
      { s.batches with context := put s.batches.context k (put s.batches.context[k.val] n b) } }

/-- The seal list becomes `l`. -/
def State.setSealList (s : State) (l : List BatchRef) : State :=
  { s with batches := { s.batches with sealList := l } }

/-- The pending store becomes `l`. -/
def State.setStore (s : State) (l : List PendingRecord) : State := { s with store := l }

/-- The generator becomes `g`. -/
def State.setGen (s : State) (g : Generator) : State := { s with gen := g }

/-- The queue of bus `b` becomes `q`. -/
def State.setQueue (s : State) (b : BusNo) (q : List Entry) : State :=
  { s with queues := { s.queues with queue := put s.queues.queue b q } }

/-- Client k's outstanding-probe count. -/
def State.probes (s : State) (k : Client) : Nat := s.queues.probes[k.val]

/-- Client k's outstanding-probe count becomes `n`. -/
def State.setProbes (s : State) (k : Client) (n : Nat) : State :=
  { s with queues := { s.queues with probes := put s.queues.probes k n } }

/-- The engine of bus `b` becomes `e`. -/
def State.setEngine (s : State) (b : BusNo) (e : Engine) : State :=
  { s with buses := { s.buses with engine := put s.buses.engine b e } }

/-- The record of device `d` becomes `r`. -/
def State.setDevice (s : State) (d : DeviceNo) (r : Device) : State :=
  { s with buses := { s.buses with device := put s.buses.device d r } }

/-- The port of client `k` becomes `p`. -/
def State.setPort (s : State) (k : Client) (p : Port) : State :=
  { s with host := { s.host with port := put s.host.port k p } }

/-- The event queue of client `k` becomes `q`. -/
def State.setEventQueue (s : State) (k : Client) (q : EventQueue) : State :=
  { s with events := put s.events k q }

/-- `s` once the part is out of reset and start-up; otherwise `f` does not act (R177, R178). -/
def whenOperating (s : State) (f : State → State) : State :=
  if s.phase = .operating then f s else s

/-! ### Offering event records (R167) -/

/-- A record offered to one client's queue, with C as its stamp. -/
structure Offer where
  client : Client
  stamp : Epoch
  event : Event
deriving DecidableEq, Repr

/-- One event at the tables while it is being served: the state as far as it has come, and the
records offered so far, in order. -/
structure Work where
  st : State
  out : List Offer

/-- The beginning of an event at the tables. -/
def begin (s : State) : Work := { st := s, out := [] }

/-- `f` applied to the state of the work. -/
def Work.update (w : Work) (f : State → State) : Work := { w with st := f w.st }

/-- R167 step 1: `e` is offered to client `k` with C as its stamp. -/
def offerTo (k : Client) (e : Event) (w : Work) : Work :=
  { w with out := w.out ++ [{ client := k, stamp := w.st.gen.c, event := e }] }

/-- R168: `e` is offered to each client whose queue has property `p`, in the order 0 to 3. -/
def offerWhere (p : Client → EventQueue → Bool) (e : Event) (w : Work) : Work :=
  (allClients.filter (fun k => p k (w.st.eventQueue k))).foldl (fun w k => offerTo k e w) w

/-- R167: an offered record takes the next sequence, and is kept in a free place or counted lost. -/
def EventQueue.take (q : EventQueue) (stamp : Epoch) (e : Event) : EventQueue :=
  if q.records.length < Config.eventDepth then
    { q with
      records := q.records ++ [{ event := e, sequence := q.nextSequence, stamp := stamp }],
      nextSequence := q.nextSequence + 1 }
  else { q with lost := if q.lost < 255 then q.lost + 1 else 255,
                nextSequence := q.nextSequence + 1 }

/-- One offer taken whole at its queue. -/
def deliverOne (s : State) (o : Offer) : State :=
  s.setEventQueue o.client ((s.eventQueue o.client).take o.stamp o.event)

/-- The records of an event, taken one after another. -/
def deliver (s : State) (out : List Offer) : State := out.foldl deliverOne s

/-- The end of an event at the tables: its records reach the queues. -/
def Work.finish (w : Work) : State := deliver w.st w.out

/-- Two blocks' records of one event in one order, each block's own order kept (R172: either order).
`pick` decides, at each place, whether the first list goes first; `fuel` is the sum of lengths. -/
def mergeBy {α : Type} (pick : Nat → Bool) : Nat → List α → List α → List α
  | 0, a, b => a ++ b
  | _ + 1, [], b => b
  | _ + 1, x :: a, [] => x :: a
  | fuel + 1, x :: a, y :: b =>
    if pick fuel then x :: mergeBy pick fuel a (y :: b) else y :: mergeBy pick fuel (x :: a) b

/-- FREE VALUE (R172): one order of two blocks' records, drawn afresh from `Config`. -/
def freeMerge (draw : Nat) (a b : List Offer) : List Offer :=
  mergeBy (Config.firstBlockFirst draw) (a.length + b.length) a b

/-- The next draw number is used up. -/
def State.draw (s : State) : State := { s with draws := s.draws + 1 }

/-! ### The lease reload (R29) -/

/-- R29: a message end at client k's port loads its lease counter with its setting. -/
def reloadLease (k : Client) (s : State) : State :=
  s.setLease k { s.lease k with counter := (s.lease k).setting }

/-! ### The table arbiter (R163) -/

/-- The first waiting port, looking at the pointer and then at the following ports. -/
def State.firstWaiting (s : State) : Option Client :=
  ([s.host.pointer, s.host.pointer + 1, s.host.pointer + 2, s.host.pointer + 3] :
    List Client).find? s.isWaiting

/-- R163: when no request is in service and a port is waiting, the first waiting port from the
pointer is granted and the pointer moves to the port after it. -/
def grantNext (s : State) : State :=
  match s.host.inService, s.firstWaiting with
  | none, some k => { s with host := { s.host with pointer := k + 1, inService := some k } }
  | _, _ => s

/-- R163: the request `i` of client `k` is in service, its message in the request buffer. -/
def State.serving (s : State) (k : Client) (i : Instr) : Bool :=
  s.host.inService == some k && (s.port k).request == some (messageOf i)

/-- R163, R164: the request `i` of client `k` was taken with no request in service, and the arbiter has
yet to grant. -/
def State.ungranted (s : State) (k : Client) (i : Instr) : Bool :=
  s.host.inService == none && s.isWaiting k && (s.port k).request == some (messageOf i)

/-- R160: a message that ends at a READY port is parsed, and refused or entered as WORKING. The arbiter
then grants (R163), unless the next message is taken before it does (R164, assumption 25). -/
def takeMessage (k : Client) (bytes : List Byte) (beforeGrant : Bool) (s : State) : State :=
  let p := s.port k
  let code := bytes.getD 0 0
  let tag := bytes.getD 1 0
  match parseRefusal bytes with
  | some .badCode =>
      s.setPort k { p with response := responseBytes { status := .badCode } tag code }
  | some .badLength =>
      s.setPort k { p with response := responseBytes { status := .badLength } tag code }
  | none =>
      let s := s.setPort k
        { p with state := .working, request := some bytes,
                 response := responseBytes { status := .working } tag code }
      if beforeGrant then s else grantNext s

/-- The end of a request message at client k's port: the lease reload of R29, then R160 when the
port takes it, R161 when it does not. -/
def endMessage (k : Client) (bytes : List Byte) (taken beforeGrant : Bool) (s : State) : State :=
  if taken && (s.port k).state == .ready then takeMessage k bytes beforeGrant (reloadLease k s)
  else reloadLease k s

/-! ### Messages at a port (R154 to R161) -/

/-- Whether a message carried in this way is one of the port: a two-wire write to its strap address
(R155), or a four-wire frame of a port locked FOUR_WIRE (R154, R158). -/
def Port.hears (p : Port) (via : Carrier) : Bool :=
  match via with
  | .twoWire address => p.lock == .twoWire && address == p.strap
  | .fourWire _ => p.lock == .fourWire

/-- How a message of the port's own client reaches it by the framing it is locked to; an UNDETERMINED
port hears none (R154). -/
def Port.carrier (p : Port) : Option Carrier :=
  match p.lock with
  | .undetermined => none
  | .twoWire => some (.twoWire p.strap)
  | .fourWire => some (.fourWire 0)

/-- R156, R161: whether the port takes the message: the judgement made at the code byte in the
two-wire framing, and the transfer state at the message's end in the four-wire framing. A two-wire
message whose code byte was not given as a command of its own is judged at its end
(assumption 4). -/
def Port.takes (p : Port) (via : Carrier) : Bool :=
  match via with
  | .twoWire _ => p.judged.getD true && p.state == .ready
  | .fourWire _ => p.state == .ready

/-- The end of a two-wire write transaction or a four-wire frame of `n` bytes at a port: the
judgement is used up; a frame has shifted out its copy of the response buffer, then 00h, and of the
byte after the last whole one the bits its clocks reach (R158, R159). -/
def Port.endTransaction (p : Port) (via : Carrier) (n : Nat) : Port :=
  match via with
  | .twoWire _ => { p with judged := none }
  | .fourWire bits =>
    let copy := p.frame.getD p.response
    { p with frame := none, shown := padTo n copy, shownBits := topBits bits.val (copy.getD n 0x00) }

/-- A message of the given bytes ends at client k's port, by R156, R158 to R161. A transaction with
no complete byte is no message; a four-wire frame with code 00h is a poll (R159). -/
def messageEnds (k : Client) (via : Carrier) (bytes : List Byte) (beforeGrant : Bool) (s : State) :
    State :=
  let p := s.port k
  if !p.hears via then s
  else
    let s := s.setPort k (p.endTransaction via bytes.length)
    match bytes, via with
    | [], _ => s
    | code :: rest, .fourWire _ =>
      if code = 0x00 then reloadLease k s
      else endMessage k (code :: rest) (p.takes via) beforeGrant s
    | _ :: _, .twoWire _ => endMessage k bytes (p.takes via) beforeGrant s

/-! ### The service of a request (R163) -/

/-- R163: the response is written, the request buffer emptied, the port READY, and the arbiter makes
its next grant. -/
def endService (k : Client) (tag code : Byte) (reply : Reply) (s : State) : State :=
  let s := s.setPort k
    { s.port k with state := .ready, request := none, response := responseBytes reply tag code }
  grantNext { s with host := { s.host with inService := none } }

/-- What a request's own rule does: the tables and records offered, and the answer. -/
abbrev Service := State → Work × Reply

/-- A refusal that changes nothing (section 5.4 of 00_scope). -/
def refuse (s : State) (status : Status) (payload : List Byte := []) : Work × Reply :=
  (begin s, { status := status, payload := payload })

/-- An answer with the work done. -/
def answer (w : Work) (status : Status) (payload : List Byte := []) : Work × Reply :=
  (w, { status := status, payload := payload })

/-- The service of a request in service: its rule, its records, and the end of the service. -/
def serviceOf (k : Client) (i : Instr) (body : Service) (s : State) : State :=
  let r := body s
  endService k ((messageOf i).getD 1 0) ((messageOf i).getD 0 0) r.2 r.1.finish

/-- The state in which the request command `i` of client `k` is judged: with `i` in service already,
`s` itself; with `i` taken and no grant made yet, after the arbiter's grant (R164); otherwise `i`'s
message ends at the port first, in the framing the port is locked to (R154, R156, R158). -/
def arrive (k : Client) (i : Instr) (s : State) : State :=
  if s.serving k i then s
  else if s.ungranted k i then grantNext s
  else match (s.port k).carrier with
    | none => s
    | some via => messageEnds k via (messageOf i) false s

/-- A request command: its message arrives unless it is in service already, and it is served if the
arbiter has it in service then. While another request is in service it waits (assumption 8). -/
def request (k : Client) (i : Instr) (body : Service) (s : State) : State :=
  whenOperating s fun s =>
    let u := arrive k i s
    if u.serving k i then serviceOf k i body u else u

/-- R24: the token test that schedule requests make first. -/
def withToken (k : Client) (body : Service) : Service := fun s =>
  if s.claims.token = some k then body s else refuse s .noToken

end Sys2Proof.Machine
end

