-- ==== Sys2Proof/Machine/QueueOps.lean ====
section
/-! DEFINITION. The life of a sealed change and of a queue entry after its request: resolution and
batch completion, supersede and admission, release, refill, priming placement, and the removals. -/

namespace Sys2Proof.Machine

open Sys2Proof

/-! ### Batch books (R51, R52) -/

/-- The outcome of a scheduled change (R51). -/
inductive RecordOutcome where
  | onTime
  | late
  | failed
  | superseded
  | dropped
deriving DecidableEq, Repr

/-- R51: the counter of `o` rises by one and unresolved falls by one. -/
def Batch.tally (b : Batch) (o : RecordOutcome) : Batch :=
  let b := { b with unresolved := b.unresolved - 1 }
  match o with
  | .onTime => { b with onTime := b.onTime + 1 }
  | .late => { b with late := b.late + 1 }
  | .failed => { b with failed := b.failed + 1 }
  | .superseded => { b with superseded := b.superseded + 1 }
  | .dropped => { b with dropped := b.dropped + 1 }

/-- R52: APPLIED when every record was on time; DEGRADED otherwise. -/
def Batch.outcome (b : Batch) : BatchOutcome :=
  if b.onTime = b.count then .applied else .degraded

/-- R52, R59: the BATCH_DONE of a batch. -/
def Batch.doneEvent (b : Batch) (o : BatchOutcome) : Event :=
  .batchDone b.id o b.target b.onTime b.late b.failed (b.superseded + b.dropped)

/-- R52: the batch offers BATCH_DONE, leaves the seal list and becomes FREE. -/
def completeBatch (r : BatchRef) (n : Fin 4) (b : Batch) (o : BatchOutcome) (w : Work) : Work :=
  (offerTo r.client (b.doneEvent o) w).update fun s =>
    (s.setContext r.client n Batch.empty).setSealList (s.batches.sealList.filter (· != r))

/-- R76 step 3: the outcome of one record is counted, and the batch completes at 0 unresolved. -/
def countOutcome (r : BatchRef) (o : RecordOutcome) (w : Work) : Work :=
  match w.st.sealedContext r with
  | none => w
  | some n =>
    let b := (w.st.context r.client n).tally o
    if b.unresolved = 0 then completeBatch r n b b.outcome w
    else w.update (·.setContext r.client n b)

/-- R76 step 1: the record at a batch's position leaves the store. -/
def removeRecord (r : BatchRef) (position : Nat) (s : State) : State :=
  s.setStore (s.store.filter (fun x => !(x.batch == r && x.position == position)))

/-- R76: the record leaves the store and its outcome is counted in its batch. -/
def resolve (r : BatchRef) (position : Nat) (o : RecordOutcome) (w : Work) : Work :=
  countOutcome r o (w.update (removeRecord r position))

/-- R68: whether two records agree in every field but the state, the one field that changes while a
record is held. -/
def PendingRecord.sameAs (x y : PendingRecord) : Bool := { y with state := x.state } == x

/-- R68: the record `x` of the store takes the state `st`. -/
def setRecordState (x : PendingRecord) (st : RecordState) (s : State) : State :=
  s.setStore (s.store.map (fun y => if x.sameAs y then { y with state := st } else y))

/-- R50: the first release of an ARMED batch makes it RELEASING. -/
def markReleasing (r : BatchRef) (s : State) : State :=
  match s.sealedContext r with
  | none => s
  | some n => s.setContext r.client n { s.context r.client n with state := .releasing }

/-! ### Slot updates (R7, R8) -/

/-- R7: a finished WRITE, NOW or PRIME entry updates its slot. -/
def completeSlot (e : Entry) (done : Bool) (s : State) : State :=
  match e.slot with
  | none => s
  | some i =>
    let r := s.slot i
    if done then
      let applied := match e.kind with
        | .write => e.stamp.map (· + BitVec.ofNat 16 r.lead)
        | .now => e.stamp
        | .prime => none
        | .probe => none
      s.setSlot i { r with live := e.value, liveState := .valid, applied := applied }
    else s.setSlot i { r with live := e.value, liveState := .uncertain, applied := none }

/-- R8: a local release gives its slot the value, VALID, with applied epoch D. -/
def applyLocal (x : PendingRecord) (s : State) : State :=
  s.setSlot x.slot
    { s.slot x.slot with live := x.value, liveState := .valid, applied := some x.dispatch }

/-! ### Admission and supersede (R111, R112) -/

/-- Whether an entry is a WAITING WRITE or NOW entry for slot `i`. -/
def Entry.waitsFor (e : Entry) (i : SlotNo) : Bool :=
  !e.onBus && (e.kind == .write || e.kind == .now) && e.slot == some i

/-- R112: the origin of a superseded entry is told. -/
def tellSuperseded (e : Entry) (i : SlotNo) (w : Work) : Work :=
  match e.origin with
  | .record r position => resolve r position .superseded w
  | .client k tag => offerTo k (.writeDone tag i .superseded) w
  | .detached => w
  | .priming => w

/-- R111 step 1, R112: a WAITING WRITE or NOW entry for slot `i` on bus `b` is removed with outcome
SUPERSEDED. -/
def supersede (b : BusNo) (i : SlotNo) (w : Work) : Work :=
  match (w.st.queue b).find? (·.waitsFor i) with
  | none => w
  | some e =>
    tellSuperseded e i (w.update (fun s => s.setQueue b ((s.queue b).eraseP (·.waitsFor i))))

/-- Whether a queue has a free place. -/
def State.hasRoom (s : State) (b : BusNo) : Bool :=
  decide ((s.queue b).length < Config.queueDepth)

/-- R111 step 2: the entry is appended at the tail when the queue has a free place. -/
def append (b : BusNo) (e : Entry) (s : State) : State :=
  if s.hasRoom b then s.setQueue b (s.queue b ++ [e]) else s

/-- An entry of the given kind for slot `i` on device `d`, with the slot's descriptor (R110). DESIGN
CHOICE (assumption 27): section 6.1 gives a WRITE or PRIME entry no report; here it is normal. -/
def slotEntry (kind : EntryKind) (i : SlotNo) (r : Slot) (d : DeviceNo) (v : Value)
    (origin : Origin) : Entry :=
  { kind := kind, device := d, register := r.register, width := r.width, order := r.order,
    value := v, slot := some i, deadline := none, late := false, attempts := 0, origin := origin,
    discarded := false, onBus := false, stamp := none }

/-- R71, R73: the WRITE entry of a released record. -/
def writeEntry (r : Slot) (d : DeviceNo) (x : PendingRecord) (late : Bool) : Entry :=
  { slotEntry .write x.slot r d x.value (.record x.batch x.position) with
    deadline := some x.dispatch, late := late }

/-! ### Release at a boundary (R69 to R72) -/

/-- R72, R78: an older DEFERRED record for the same slot is resolved SUPERSEDED. -/
def supersedeDeferred (i : SlotNo) (w : Work) : Work :=
  match w.st.store.find? (fun x => x.slot == i && x.state == .deferred) with
  | none => w
  | some x => resolve x.batch x.position .superseded w

/-- R70: a local record is applied and resolved ON_TIME. -/
def releaseLocal (x : PendingRecord) (w : Work) : Work :=
  resolve x.batch x.position .onTime (w.update (applyLocal x))

/-- R71, R72: a downstream record enters the queue of its device's bus, or becomes DEFERRED. -/
def releaseDownstream (x : PendingRecord) (d : DeviceNo) (w : Work) : Work :=
  let b := (w.st.device d).bus
  let w := supersede b x.slot (supersedeDeferred x.slot w)
  if w.st.hasRoom b then
    w.update fun s =>
      setRecordState x .released
        (append b (writeEntry (s.slot x.slot) d x false) s)
  else w.update (setRecordState x .deferred)

/-- R69: one record is released, by the kind of its slot; its batch becomes RELEASING (R50). -/
def releaseRecord (w : Work) (x : PendingRecord) : Work :=
  let w := w.update (markReleasing x.batch)
  match (w.st.slot x.slot).device with
  | none => releaseLocal x w
  | some d => releaseDownstream x d w

/-- R69: the WAITING records whose dispatch epoch is `d`, in release order. -/
def State.dueRecords (s : State) (d : Epoch) : List PendingRecord :=
  s.store.filter (fun x => x.state == .waiting && x.dispatch == d)

/-- R69: the boundary that begins epoch C releases every WAITING record whose dispatch epoch is C. -/
def releaseDue (w : Work) : Work := (w.st.dueRecords w.st.gen.c).foldl releaseRecord w

/-! ### Refill and placement (R73, R74, R97) -/

/-- R73, R74: one deferred record enters bus `b`'s queue when a place is free. -/
def refillOne (b : BusNo) (s : State) (x : PendingRecord) : State :=
  match (s.slot x.slot).device with
  | none => s
  | some d =>
    if s.hasRoom b then
      setRecordState x .released
        (append b (writeEntry (s.slot x.slot) d x (s.gen.lateOnRefill x.dispatch)) s)
    else s

/-- R73: deferred records enter, oldest first, until none is left or the queue is full. -/
def refill (b : BusNo) (s : State) : State := (s.deferredSet b).foldl (refillOne b) s

/-- R97: one slot of the prime list is placed when the queue of its bus has a free place. -/
def placePrime (s : State) (i : SlotNo) : State :=
  match (s.slot i).device with
  | none => s
  | some d =>
    let b := (s.device d).bus
    if s.hasRoom b then
      let s := append b (slotEntry .prime i (s.slot i) d (s.slot i).live .priming) s
      s.setGen { s.gen with primeList := s.gen.primeList.filter (· != i) }
    else s

/-- R97: the slots of the prime list are placed in ascending order while places are free. -/
def placePrimes (s : State) : State := s.gen.primeList.foldl placePrime s

/-- R73, R97: a place freed on bus `b` is filled by refill, and then, during PRIMING, by placement. -/
def fillPlaces (b : BusNo) (s : State) : State :=
  let s := refill b s
  if s.gen.run = .priming then placePrimes s else s

/-! ### The drop of stale records (R80, R81) -/

/-- R80: whether a record's dispatch epoch lies outside `start` to `start` + 240. -/
def isStale (start : Epoch) (x : PendingRecord) : Bool :=
  (x.state == .waiting || x.state == .deferred) && decide (241 ≤ distance start x.dispatch)

/-- R80: every stale WAITING or DEFERRED record is resolved DROPPED, in release order. -/
def dropStale (start : Epoch) (w : Work) : Work :=
  (w.st.store.filter (isStale start)).foldl
    (fun w x => resolve x.batch x.position .dropped w) w

/-! ### Lateness (R117) -/

/-- R117: every WAITING WRITE entry whose deadline is `d` is marked late. -/
def markLate (d : Epoch) (q : List Entry) : List Entry :=
  q.map (fun e =>
    if !e.onBus && e.kind == .write && e.deadline == some d then { e with late := true } else e)

/-- R117: each queue marks late the WAITING WRITE entries whose deadline is `d`. -/
def markQueuesLate (d : Epoch) (s : State) : State :=
  (s.setQueue 0 (markLate d (s.queue 0))).setQueue 1 (markLate d (s.queue 1))

/-- R118: the record outcome of a WRITE entry that ends DONE. -/
def Entry.doneOutcome (e : Entry) : RecordOutcome :=
  if !e.late && e.stamp.isSome && e.stamp == e.deadline then .onTime else .late

/-! ### Removals (R126, R99, R124, R125) -/

/-- R126, R99: WAITING PRIME entries leave, and ON_BUS ones no longer reach the generator
(assumption 12). -/
def withoutPrimes (q : List Entry) : List Entry :=
  (q.filter (fun e => !(e.kind == .prime && !e.onBus))).map (fun e =>
    if e.kind == .prime then { e with discarded := true } else e)

/-- R126: both queues drop their WAITING PRIME entries, and each removal lets a deferred record in. -/
def abandonPrimes (s : State) : State :=
  let s := refill 0 (s.setQueue 0 (withoutPrimes (s.queue 0)))
  refill 1 (s.setQueue 1 (withoutPrimes (s.queue 1)))

/-- The client that an entry's origin names, if any. -/
def Entry.isOf (e : Entry) (k : Client) : Bool :=
  match e.origin with
  | .client j _ => j == k
  | _ => false

/-- R125: whether DETACH of client `k` removes the entry. -/
def Entry.detachRemoves (e : Entry) (k : Client) : Bool :=
  !e.onBus && (e.kind == .now || e.kind == .probe) && e.isOf k

/-- R125: client k's WAITING NOW and PROBE entries leave, and its ON_BUS probes are discarded. -/
def withoutClient (k : Client) (q : List Entry) : List Entry :=
  (q.filter (fun e => !e.detachRemoves k)).map (fun e =>
    if e.kind == .probe && e.isOf k then { e with discarded := true } else e)

/-- R125: bus `b`'s part of DETACH. DESIGN CHOICE (assumption 24): each entry that leaves during PRIMING
lets a slot of the prime list be placed (R97: whenever an entry leaves a queue during PRIMING), although
R86 says that DETACH leaves the generator unchanged. -/
def detachQueue (k : Client) (s : State) (b : BusNo) : State :=
  let gone := (s.queue b).countP (fun e => e.kind == .probe && e.detachRemoves k)
  let s := s.setProbes k (s.probes k - gone)
  fillPlaces b (s.setQueue b (withoutClient k (s.queue b)))

/-- R124: what RESET_SCHEDULE leaves of an ON_BUS entry. -/
def Entry.afterReset (e : Entry) : Entry :=
  match e.kind with
  | .write => { e with origin := .detached }
  | _ => { e with discarded := true }

/-- R124: the record offered for a WAITING entry that RESET_SCHEDULE removes. -/
def Entry.resetOffer (c : Epoch) (e : Entry) : Option Offer :=
  match e.kind, e.origin, e.slot with
  | .now, .client k tag, some i =>
      some { client := k, stamp := c, event := .writeDone tag i .dropped }
  | .probe, .client k tag, _ =>
      some { client := k, stamp := c, event := .probeResult tag e.device .dropped 0 }
  | _, _, _ => none

/-- R124: the records that bus `b`'s queue offers at RESET_SCHEDULE, in queue order. -/
def resetOffers (s : State) (b : BusNo) : List Offer :=
  ((s.queue b).filter (!·.onBus)).filterMap (Entry.resetOffer s.gen.c)

/-- R124: the WAITING probes of client `k` that leave at RESET_SCHEDULE. -/
def waitingProbes (s : State) (k : Client) : Nat :=
  (s.queue 0).countP (fun e => !e.onBus && e.kind == .probe && e.isOf k) +
    (s.queue 1).countP (fun e => !e.onBus && e.kind == .probe && e.isOf k)

/-- R124: both queues keep only the entries of their transfer in progress. -/
def resetQueueEntries (s : State) : State :=
  let s := allClients.foldl (fun t k => t.setProbes k (t.probes k - waitingProbes s k)) s
  let s := s.setQueue 0 (((s.queue 0).filter (·.onBus)).map Entry.afterReset)
  s.setQueue 1 (((s.queue 1).filter (·.onBus)).map Entry.afterReset)

/-- R59, R83: a sealed batch completes with outcome RESET, its unresolved records counted dropped. -/
def resetBatch (w : Work) (r : BatchRef) : Work :=
  match w.st.sealedContext r with
  | none => w
  | some n =>
    let b := w.st.context r.client n
    completeBatch r n { b with dropped := b.dropped + b.unresolved, unresolved := 0 } .reset w

/-- R59, R83: every batch on the seal list completes with outcome RESET, oldest first, and the store
is left empty. -/
def resetBatchesAndStore (w : Work) : Work :=
  (w.st.batches.sealList.foldl resetBatch w).update (fun s => (s.setStore []).setSealList [])

end Sys2Proof.Machine
end

