-- ==== Sys2Proof/Machine/ScheduleOps.lean ====
section
/-! DEFINITION. The generator's moments and what they do in the other blocks: the timing outputs,
the boundary, the window moments, entering STOPPED, the end of priming, and its failure. -/

namespace Sys2Proof.Machine

open Sys2Proof

/-! ### Timing outputs (R143 to R149) -/

/-- R147: the pin level of an output that is active or not. -/
def pinLevel (polarity : Polarity) (active : Bool) : Bool :=
  match polarity with
  | .activeHigh => active
  | .activeLow => !active

/-- R144: a program is selected in epoch `c` when c mod divisor equals phase. -/
def Program.selectedIn (p : Program) (c : Epoch) : Bool := c.toNat % p.divisor == p.phase

/-- R145, R146: whether a selected output is active at a line. -/
def Program.activeAt (p : Program) (vspan line : Nat) : Bool :=
  match p.mode with
  | .off => false
  | .pulse => decide (p.rise ≤ line) && decide (line < p.fall) && decide (line < vspan)
  | .level => decide (line < vspan)
  | .mark => line == 0

/-- R145, R147: an output's active flag and pin level at a line of the epoch in progress. -/
def TimingOutput.atLine (o : TimingOutput) (vspan line : Nat) : TimingOutput :=
  let active := o.selected && o.program.activeAt vspan line
  { o with active := active, high := pinLevel o.program.polarity active }

/-- R143: an output takes a program at the boundary that begins epoch `c`. -/
def TimingOutput.takeProgram (o : TimingOutput) (p : Program) (c : Epoch) (vspan : Nat) :
    TimingOutput :=
  { o with program := p, selected := p.selectedIn c }.atLine vspan 0

/-- The edge slot of output `k`, 232 + 2k (section 1.4). -/
def edgeSlotNo (k : Fin 12) : SlotNo := ⟨232 + 2 * k.val, by have := k.isLt; omega⟩

/-- The form slot of output `k`, 233 + 2k (section 1.4). -/
def formSlotNo (k : Fin 12) : SlotNo := ⟨233 + 2 * k.val, by have := k.isLt; omega⟩

/-- R142: the decoded live values of output k's two slots. -/
def State.liveProgram (s : State) (k : Fin 12) : Program :=
  programOf (s.slot (edgeSlotNo k)).live (s.slot (formSlotNo k)).live

/-- The twelve outputs. -/
def allOutputs : List (Fin 12) := [0, 1, 2, 3, 4, 5, 6, 7, 8, 9, 10, 11]

/-- Output k. -/
def State.output (s : State) (k : Fin 12) : TimingOutput := s.outputs[k.val]

/-- R143: every output takes its program for epoch C. -/
def takePrograms (s : State) : State :=
  { s with outputs := allOutputs.foldl (fun v k =>
      modifyAt v k (fun o => o.takeProgram (s.liveProgram k) s.gen.c s.gen.vspan)) s.outputs }

/-- R145: every output's level at the beginning of the generator's line. -/
def outputsAtLine (s : State) : State :=
  { s with outputs := s.outputs.map (fun o => o.atLine s.gen.vspan s.gen.line) }

/-- R149: an output in STOPPED, PRIMING or WAIT_TRIGGER. -/
def TimingOutput.inactive (o : TimingOutput) : TimingOutput :=
  { o with selected := false, active := false, high := pinLevel o.program.polarity false }

/-- R149: every output goes to its inactive level. -/
def outputsInactive (s : State) : State :=
  { s with outputs := s.outputs.map TimingOutput.inactive }

/-! ### The boundary (R92) -/

/-- R107: a MARK subscriber's counter advances by one, and restarts when it reaches the divider. -/
def EventQueue.advanceMark (q : EventQueue) : EventQueue :=
  if q.mark then { q with counter := if q.counter + 1 = q.divider then 0 else q.counter + 1 }
  else q

/-- R107: whether EPOCH_MARK is offered at this boundary. -/
def EventQueue.markDue (q : EventQueue) : Bool := q.mark && q.counter + 1 == q.divider

/-- R107: the EPOCH_MARK records of a boundary, in client order. -/
def markOffers (s : State) : List Offer :=
  (allClients.filter (fun k => (s.eventQueue k).markDue)).map (fun k =>
    { client := k, stamp := s.gen.c, event := .epochMark s.gen.c })

/-- R107: every mark counter advances. -/
def advanceMarks (s : State) : State := { s with events := s.events.map EventQueue.advanceMark }

/-- R92: a boundary that begins epoch C, which the generator already holds. The store releases, the
outputs take their programs after its local applications, and the marks advance; the store's records
and the marks reach a client's queue in either order (R172). -/
def boundary (w : Work) : Work :=
  let released := releaseDue { w with out := [] }
  let marks := markOffers released.st
  { st := (advanceMarks (takePrograms released.st)).draw,
    out := w.out ++ freeMerge released.st.draws released.out marks }

/-- R90: the generator begins epoch `c` in RUNNING, at line 0, its window still to open. -/
def beginEpoch (c : Epoch) (s : State) : State :=
  s.setGen { s.gen with run := .running, c := c, line := 0, window := .shut }

/-- R90, R92: epoch `c` begins. -/
def startEpochNow (c : Epoch) (w : Work) : Work := boundary (w.update (beginEpoch c))

/-- R93, R98: the generator waits for a trigger, and the outputs go inactive (R149). -/
def waitForTrigger (s : State) : State :=
  outputsInactive (s.setGen { s.gen with run := .waitTrigger, line := 0, window := .shut })

/-! ### The window moments (R91) -/

/-- R91: the window open reaches the bus engines. -/
def handWindowOpen (s : State) : State := s.setGen { s.gen with window := .opened }

/-- R91, R117: the window close reaches the engines and the queues, which mark late the WAITING WRITE
entries with this deadline. -/
def handWindowClose (s : State) : State :=
  markQueuesLate s.gen.c (s.setGen { s.gen with window := .closed })

/-- R91: the window moments due at the present line have reached every block before the line ends
(assumption 7). -/
def settleWindow (s : State) : State :=
  let s := if s.gen.openDue then handWindowOpen s else s
  if s.gen.closeDue then handWindowClose s else s

/-! ### Reports (R106) -/

/-- R106: SCHEDULE_STATE goes to every SCHED subscriber, and once to the causing client when it is
not one. -/
def reportSchedule (reason : Reason) (cause : Option Client) (w : Work) : Work :=
  offerWhere (fun k q => q.sched || cause == some k)
    (.scheduleState w.st.gen.run w.st.gen.mode reason cause w.st.gen.c) w

/-- The issuer becomes `k` (R86). -/
def setIssuer (k : Option Client) (s : State) : State := s.setGen { s.gen with issuer := k }

/-! ### Entering STOPPED (R103) -/

/-- R103: the run state becomes STOPPED, with everything that goes with it in the same event. -/
def enterStopped (s : State) : State :=
  let s := if s.gen.run.inEpoch then markQueuesLate s.gen.c s else s
  outputsInactive (s.setGen { s.gen with
    run := .stopped, line := 0, latch := false, primeList := [], primesOutstanding := 0,
    window := .shut })

/-! ### The end of priming and its failure (R98, R99) -/

/-- R86: the prime list is empty and primes outstanding is 0 outside PRIMING. -/
def clearPrimes (s : State) : State :=
  s.setGen { s.gen with primeList := [], primesOutstanding := 0 }

/-- R98 step 3: the end of priming is reported, and the issuer becomes none. -/
def reportPrimed (w : Work) : Work :=
  (reportSchedule .primed w.st.gen.issuer w).update (setIssuer none)

/-- R98, R120: priming ends, with no slot left on the prime list (R86). The second stale pass comes
first. In TRIGGERED mode the generator then waits for its trigger with C = S − 1, and the end is
reported; in FREE mode epoch S is still to begin (`beginFirstEpoch`). -/
def closePriming (w : Work) : Work :=
  let w := (dropStale w.st.gen.startEpoch w).update clearPrimes
  match w.st.gen.mode with
  | .free => w
  | .triggered => reportPrimed
      (w.update fun s => waitForTrigger (s.setGen { s.gen with c := s.gen.startEpoch - 1 }))

/-- R98 steps 2 and 3 in FREE mode: epoch S begins, and then the end of priming is reported. -/
def beginFirstEpoch (w : Work) : Work := reportPrimed (startEpochNow w.st.gen.startEpoch w)

/-- R98: priming ends in the service of START, with none to make. -/
def endPriming (w : Work) : Work :=
  let w := closePriming w
  match w.st.gen.mode with
  | .free => beginFirstEpoch w
  | .triggered => w

/-- R99: a PRIME entry for slot `i` finished FAILED during PRIMING. -/
def failPriming (i : SlotNo) (w : Work) : Work :=
  let w := w.update (fun s => enterStopped (abandonPrimes s))
  let w := match w.st.gen.issuer with
    | some k => offerTo k (.primeFailed i) w
    | none => w
  (reportSchedule .primeFailed w.st.gen.issuer w).update (setIssuer none)

/-! ### The end of a transfer (R119) -/

/-- R119, R77: a finished WRITE entry updates its slot, and its record, if it still carries one, is
resolved. -/
def endWrite (e : Entry) (done : Bool) (w : Work) : Work :=
  let w := w.update (completeSlot e done)
  match e.origin with
  | .record r position => resolve r position (if done then e.doneOutcome else .failed) w
  | _ => w

/-- R119, R17: a finished NOW entry updates its slot and, unless discarded, offers WRITE_DONE. -/
def endNow (e : Entry) (done : Bool) (w : Work) : Work :=
  let w := w.update (completeSlot e done)
  match e.origin, e.slot with
  | .client k tag, some i =>
      if e.discarded then w else offerTo k (.writeDone tag i (if done then .done else .failed)) w
  | _, _ => w

/-- R98, R120: a DONE result lowers primes outstanding by one, and priming ends at the entry that brings
the count to 0. -/
def countPrime (w : Work) : Work :=
  let w := w.update fun s =>
    s.setGen { s.gen with primesOutstanding := s.gen.primesOutstanding - 1 }
  if w.st.gen.primesOutstanding = 0 then closePriming w else w

/-- R119, R120: a finished PRIME entry updates its slot, and during PRIMING it is handed to the
generator: DONE is counted while primes are outstanding, FAILED makes priming fail. -/
def endPrime (e : Entry) (done : Bool) (w : Work) : Work :=
  let w := w.update (completeSlot e done)
  if w.st.gen.run = .priming ∧ e.discarded = false then
    if done then
      if w.st.gen.primesOutstanding = 0 then w else countPrime w
    else
      match e.slot with
      | some i => failPriming i w
      | none => w
  else w

/-- R122: a finished PROBE entry lowers its client's count and, unless discarded, offers
PROBE_RESULT. -/
def endProbe (e : Entry) (done : Bool) (bytes : List Byte) (w : Work) : Work :=
  match e.origin with
  | .client k tag =>
    let w := w.update (fun s => s.setProbes k (s.probes k - 1))
    if e.discarded then w
    else if done then
      offerTo k (.probeResult tag e.device .done (probeValue e.order (bytes.take e.width))) w
    else offerTo k (.probeResult tag e.device .failed 0) w
  | _ => w

/-- R119 step 2: a result is handed on according to the entry's kind. -/
def handOn (e : Entry) (done : Bool) (bytes : List Byte) (w : Work) : Work :=
  match e.kind with
  | .write => endWrite e done w
  | .now => endNow e done w
  | .prime => endPrime e done w
  | .probe => endProbe e done bytes w

/-- R119: the first `n` entries of bus `b`'s queue leave, one by one: the place is freed, the result
handed on, and the place filled. -/
def endEntries (b : BusNo) (done : Bool) (bytes : List Byte) : Nat → Work → Work
  | 0, w => w
  | n + 1, w =>
    match w.st.queue b with
    | [] => w
    | e :: rest =>
      let w := handOn e done bytes (w.update (·.setQueue b rest))
      endEntries b done bytes n (w.update (fillPlaces b))

/-- The number of ON_BUS entries, which are at the front of the queue (R109). -/
def carriedCount (q : List Entry) : Nat := (q.takeWhile (·.onBus)).length

/-- R119, R120: the transfer of bus `b` ends, and its engine goes to state `next`. When an entry has
ended priming in FREE mode, epoch S begins after every carried entry has left and its place is refilled
(assumption 11). -/
def endTransfer (b : BusNo) (done : Bool) (bytes : List Byte) (next : EngineState) (w : Work) :
    Work :=
  let wasPriming := w.st.gen.run = .priming ∧ 0 < w.st.gen.primesOutstanding
  let w := w.update fun s => s.setEngine b { s.engine b with
    state := next, xfer := none, stretching := false, stretchCount := 0 }
  let w := endEntries b done bytes (carriedCount (w.st.queue b)) w
  if wasPriming ∧ w.st.gen.run = .priming ∧ w.st.gen.primesOutstanding = 0 then beginFirstEpoch w
  else w

/-! ### Bus engines (R135 to R139) -/

/-- R137: the next attempt of the transfer begins, or fails at once because DSDA is low. -/
def beginAttempt (t : Transfer) (dataLow : Bool) (e : Engine) : Engine :=
  if dataLow then
    { e with state := .recovery, xfer := some { t with made := t.made + 1 }, stretching := false,
             stretchCount := 0, pulses := 0 }
  else { e with state := .transfer, xfer := some t, stretching := false, stretchCount := 0 }

/-- R133 to R137: items that an attempt or a recovery of bus `b` has put on the wires. -/
def putOnWires (b : BusNo) (items : List WireItem) (s : State) : State :=
  s.setEngine b { s.engine b with sent := (s.engine b).sent ++ items }

/-- R131: the number of attempts made is written into every entry carried (assumption 10). -/
def noteAttempts (b : BusNo) (s : State) : State :=
  match (s.engine b).xfer with
  | none => s
  | some t => s.setQueue b ((s.queue b).map (fun e =>
      if e.onBus then { e with attempts := t.made } else e))

/-- R135, R137: after a failed attempt, with `t` counting it: the next attempt at once while attempts
remain, otherwise the transfer ends FAILED. -/
def retryOrFail (b : BusNo) (t : Transfer) (dataLow : Bool) (w : Work) : Work :=
  if t.made < t.limit then
    w.update fun s => noteAttempts b (s.setEngine b (beginAttempt t dataLow (s.engine b)))
  else endTransfer b false [] .idle w

/-- R138, R139: BUS_FAULT goes to the BUS subscribers, and once to the recovery requester when it is
not one. -/
def reportBus (b : BusNo) (faulted : Bool) (requester : Option Client) (w : Work) : Work :=
  offerWhere (fun k q => q.bus || requester == some k) (.busFault b faulted) w

/-- R138: a recovery ends with the bus not freed. -/
def enterFault (b : BusNo) (w : Work) : Work :=
  let requester := (w.st.engine b).requester
  let w := match (w.st.engine b).xfer with
    | some _ => endTransfer b false [] .fault w
    | none => w.update fun s => s.setEngine b { s.engine b with
        state := .fault, stretching := false, stretchCount := 0 }
  (reportBus b true requester w).update fun s =>
    s.setEngine b { s.engine b with requester := none }

/-- R136: what a housekeeping tick does to an engine, with DSCL held low by a target or not. A limit
exceeded at an earlier tick stays exceeded (assumption 6). -/
def Engine.tick (e : Engine) (held : Bool) : Engine :=
  match e.state with
  | .idle => e
  | .fault => e
  | .transfer | .recovery =>
    if e.limitExceeded then e
    else if held then
      { e with stretching := true,
               stretchCount := if e.stretching then e.stretchCount + 1 else 1 }
    else { e with stretching := false }

end Sys2Proof.Machine
end

