-- ==== Sys2Proof/Machine/Claims.lean ====
section
/-! DEFINITION. The Claim Table (chapter 2): slot claims, the schedule token, the leases, the
housekeeping tick and the lapse. -/

namespace Sys2Proof.Machine

open Sys2Proof

/-- The slots first, first + 1, …, `count` of them, as far as slot 255. -/
def slotRange (first count : Nat) : List SlotNo :=
  (List.range count).filterMap (fun j =>
    if h : first + j < 256 then some ⟨first + j, h⟩ else none)

/-- R22 step 1, R23: whether a count and a range are legal. -/
def rangeOk (first count : Byte) : Bool :=
  decide (1 ≤ count.toNat) && decide (count.toNat ≤ 64) &&
    decide (first.toNat + count.toNat - 1 ≤ 255)

/-- The slots of `slots` that client `k` owns become unowned. -/
def releaseSlots (k : Client) (slots : List SlotNo) (s : State) : State :=
  slots.foldl (fun s i => if s.owner i = some k then s.setOwner i none else s) s

/-- How many of `slots` client `k` owns. -/
def State.ownedAmong (s : State) (k : Client) (slots : List SlotNo) : Nat :=
  slots.countP (fun i => s.owner i == some k)

/-- The number of slots client `k` owns. -/
def State.ownedCount (s : State) (k : Client) : Nat :=
  s.claims.owner.toList.countP (fun o => o == some k)

/-- Every slot that client `k` owns becomes unowned. -/
def releaseAll (k : Client) (s : State) : State :=
  { s with claims := { s.claims with
      owner := s.claims.owner.map (fun o => if o = some k then none else o) } }

/-- R22: the checks of CLAIM in order, and its effect. -/
def serveClaim (k : Client) (first count : Byte) : Service := fun s =>
  let slots := slotRange first.toNat count.toNat
  if !rangeOk first count then refuse s .badValue
  else match slots.find? (fun i => !(s.slot i).defined) with
    | some i => refuse s .undefinedSlot [byteOf i.val]
    | none =>
      match slots.find? (s.heldByOther k) with
      | some i => refuse s .heldBy [byteOf i.val, clientByte (s.owner i)]
      | none =>
        answer (begin (slots.foldl (fun s i => s.setOwner i (some k)) s)) .ok
          [byteOf (slots.countP (fun i => s.owner i == none))]

/-- R23: RELEASE gives up the requester's own claims in the range. -/
def serveRelease (k : Client) (first count : Byte) : Service := fun s =>
  let slots := slotRange first.toNat count.toNat
  if !rangeOk first count then refuse s .badValue
  else answer (begin (releaseSlots k slots s)) .ok [byteOf (s.ownedAmong k slots)]

/-- R25: CLAIM_SCHEDULE takes the token if it is unheld. -/
def serveClaimSchedule (k : Client) : Service := fun s =>
  match s.claims.token with
  | none => answer (begin (s.setToken (some k))) .ok
  | some j => if j = k then answer (begin s) .ok else refuse s .heldBy [byteOf j.val]

/-- R26: RELEASE_SCHEDULE gives the token up. -/
def serveReleaseSchedule (k : Client) : Service := fun s =>
  if s.claims.token = some k then answer (begin (s.setToken none)) .ok else refuse s .noToken

/-- R27: REVOKE removes every slot claim of the named client, which is told. -/
def serveRevoke (k : Client) (named : Byte) : Service := fun s =>
  match clientNo named with
  | none => refuse s .badValue
  | some j =>
    if j = k then refuse s .badValue
    else
      answer (offerTo j (.claimsRevoked k (s.ownedCount j)) (begin (releaseAll j s))) .ok
        (countBytes (s.ownedCount j))

/-- R28: whether a lease setting is 0 or 8 to 255. -/
def settingOk (n : Nat) : Bool := n == 0 || (decide (8 ≤ n) && decide (n ≤ 255))

/-- R28: SET_LEASE sets the requester's setting and loads its counter. -/
def serveSetLease (k : Client) (setting : Half) : Service := fun s =>
  if !settingOk setting.toNat then refuse s .badValue
  else answer (begin (s.setLease k { setting := setting.toNat, counter := setting.toNat })) .ok
    (countBytes (s.lease k).setting)

/-- R57: the abort of client k's OPEN batch, with BATCH_ABORTED. -/
def abortForLapse (k : Client) (w : Work) : Work :=
  match w.st.openContext k with
  | none => w
  | some n =>
    (offerTo k (.batchAborted (w.st.context k n).id) w).update (·.setContext k n Batch.empty)

/-- R31: the lapse of client k's lease: claims and token released, CLAIMS_LAPSED, and the abort. -/
def lapse (k : Client) (w : Work) : Work :=
  let s := w.st
  let held := s.claims.token == some k
  let w := w.update fun s =>
    let s := releaseAll k s
    if held then s.setToken none else s
  abortForLapse k (offerTo k (.claimsLapsed (s.ownedCount k) held) w)

/-- R30, R31: the tick at client k's lease counter: counted down, with the lapse when it reaches 0. -/
def tickLease (w : Work) (k : Client) : Work :=
  let l := w.st.lease k
  if l.setting = 0 ∨ l.counter = 0 then w
  else
    let w := w.update (·.setLease k { l with counter := l.counter - 1 })
    if l.counter = 1 then lapse k w else w

/-- R87: the housekeeping tick reaches the four leases (R30, R31) and the two engines (R136). -/
def tick (held0 held1 : Bool) (s : State) : State :=
  let s := (allClients.foldl tickLease (begin s)).finish
  (s.setEngine 0 ((s.engine 0).tick held0)).setEngine 1 ((s.engine 1).tick held1)

/-- CLAIM (R22). -/
def execClaim (k : Client) (tag first count : Byte) (s : State) :
    Host.Outcome State Fault Refusal :=
  .next (request k (.claim k tag first count) (serveClaim k first count) s)

/-- RELEASE (R23). -/
def execRelease (k : Client) (tag first count : Byte) (s : State) :
    Host.Outcome State Fault Refusal :=
  .next (request k (.release k tag first count) (serveRelease k first count) s)

/-- CLAIM_SCHEDULE (R25). -/
def execClaimSchedule (k : Client) (tag : Byte) (s : State) : Host.Outcome State Fault Refusal :=
  .next (request k (.claimSchedule k tag) (serveClaimSchedule k) s)

/-- RELEASE_SCHEDULE (R26). -/
def execReleaseSchedule (k : Client) (tag : Byte) (s : State) :
    Host.Outcome State Fault Refusal :=
  .next (request k (.releaseSchedule k tag) (serveReleaseSchedule k) s)

/-- REVOKE (R27). -/
def execRevoke (k : Client) (tag named : Byte) (s : State) : Host.Outcome State Fault Refusal :=
  .next (request k (.revoke k tag named) (withToken k (serveRevoke k named)) s)

/-- SET_LEASE (R28). -/
def execSetLease (k : Client) (tag : Byte) (setting : Half) (s : State) :
    Host.Outcome State Fault Refusal :=
  .next (request k (.setLease k tag setting) (serveSetLease k setting) s)

/-- HOUSEKEEPING_TICK (R87). The tick is counted from the release of RESET_N, and the first comes
after the start-up interval (R178). -/
def execHousekeepingTick (held0 held1 : Bool) (s : State) : Host.Outcome State Fault Refusal :=
  .next (whenOperating s (tick held0 held1))

/-- LEASE_LAPSE (R31): the tick reaches client k's counter at 1, ahead of its other receivers (R30:
it reaches the four counters independently). At another count no lapse comes (assumption 5). -/
def execLeaseLapse (k : Client) (s : State) : Host.Outcome State Fault Refusal :=
  .next (whenOperating s fun s =>
    if (s.lease k).counter = 1 then (tickLease (begin s) k).finish else s)

end Sys2Proof.Machine
end

