-- ==== Sys2Proof/Machine/Batches.lean ====
section
/-! DEFINITION. The requests of the Batch Contexts (chapter 3): OPEN, STAGE, STAGE_RUN, UNSTAGE,
ABORT, SEAL, CANCEL and READ_BATCH. -/

namespace Sys2Proof.Machine

open Sys2Proof

/-- R38: a batch with a new list of staged records, its max lead computed again. -/
def Batch.withRecords (b : Batch) (records : List Staged) : Batch :=
  { b with records := records, maxLead := maxLeadOf records }

/-! ### OPEN (R37, R39) -/

/-- The id after `id`: plus 1, with 255 followed by 1 (R37). -/
def idAfter (id : Nat) : Nat := if 255 ≤ id then 1 else id + 1

/-- Whether a context of client `k` that is not FREE has the id (R37). -/
def State.idLive (s : State) (k : Client) (id : Nat) : Bool :=
  (s.findContext k (fun b => b.state != .free && b.id == id)).isSome

/-- R37: the first id after `id` that no live context of client `k` holds. At most three are passed
over, so four tries find it. -/
def State.freshId (s : State) (k : Client) : (tries : Nat) → (id : Nat) → Nat
  | 0, id => idAfter id
  | tries + 1, id => if s.idLive k (idAfter id) then s.freshId k tries (idAfter id) else idAfter id

/-- Client k's previous id. -/
def State.previousId (s : State) (k : Client) : Nat := s.batches.previousId[k.val]

/-- Client k's previous id becomes `id`. -/
def State.setPreviousId (s : State) (k : Client) (id : Nat) : State :=
  { s with batches := { s.batches with previousId := put s.batches.previousId k id } }

/-- R39: the checks of OPEN in order, and its effect. -/
def serveOpen (k : Client) (target policy : Byte) (epoch : Half) : Service := fun s =>
  match s.openContext k with
  | some n => refuse s .batchOpen [byteOf (s.context k n).id]
  | none =>
    match s.findContext k (fun b => b.state == .free) with
    | none => refuse s .noContext
    | some n =>
      match targetKindOf target, policyOf policy with
      | some kind, some pol =>
        let id := s.freshId k 3 (s.previousId k)
        let b := { Batch.empty with state := .opened, id := id, kind := kind, epoch := epoch,
                                    policy := pol }
        answer (begin ((s.setContext k n b).setPreviousId k id)) .ok [byteOf id]
      | _, _ => refuse s .badValue

/-! ### STAGE and STAGE_RUN (R40 to R42) -/

/-- R40 steps 2 to 5: the refusal of staging a value for a slot, if any. -/
def State.stageRefusal (s : State) (k : Client) (i : SlotNo) (v : Value) : Option Status :=
  if !(s.slot i).defined then some .undefinedSlot
  else if (s.slot i).cls ≠ .epoch then some .wrongClass
  else if !s.admissible i v then some .outOfRange
  else if s.heldByOther k i then some .notOwner
  else none

/-- What staging one value did: refused, replaced the previous value, or appended. -/
inductive StageResult where
  | refused (status : Status)
  | replaced (previous : Value) (batch : Batch)
  | appended (batch : Batch)

/-- R41: a value that passes R40 is staged in batch `b`. -/
def stageInto (s : State) (b : Batch) (i : SlotNo) (v : Value) : StageResult :=
  match b.records.find? (fun r => r.slot == i) with
  | some old =>
      .replaced old.value (b.withRecords (b.records.map (fun r =>
        if r.slot == i then { r with value := v } else r)))
  | none =>
      if b.records.length < Config.batchRecords then
        .appended (b.withRecords
          (b.records ++ [{ slot := i, value := v, lead := (s.slot i).lead }]))
      else .refused .batchFull

/-- R40 steps 2 to 5 and then R41. -/
def stageOne (s : State) (k : Client) (b : Batch) (i : SlotNo) (v : Value) : StageResult :=
  match s.stageRefusal k i v with
  | some status => .refused status
  | none => stageInto s b i v

/-- R40, R41: STAGE. -/
def serveStage (k : Client) (slot : Byte) (value : Value) : Service := fun s =>
  match s.openContext k with
  | none => refuse s .noBatch
  | some n =>
    let i := slotNo slot
    match stageOne s k (s.context k n) i value with
    | .refused status => refuse s status
    | .replaced previous b =>
        answer (begin (s.setContext k n b)) .ok
          ([0x01] ++ valueBytes previous ++ [0x00, byteOf b.records.length])
    | .appended b =>
        answer (begin (s.setContext k n b)) .ok
          ([0x00] ++ valueBytes (s.slot i).live ++
            [liveStateCode (s.slot i).liveState, byteOf b.records.length])

/-- How far a run has come: the batch so far, the slots accepted and replaced, and what stopped it. -/
structure RunProgress where
  batch : Batch
  accepted : Nat
  replaced : Nat
  stop : Status
  stopSlot : SlotNo

/-- R42: the slots of a run with their values, taken in ascending order until one is refused. -/
def stageRunOver (s : State) (k : Client) : List (SlotNo × Value) → RunProgress → RunProgress
  | [], p => p
  | (i, v) :: rest, p =>
    match stageOne s k p.batch i v with
    | .refused status => { p with stop := status, stopSlot := i }
    | .replaced _ b => stageRunOver s k rest
        { p with batch := b, accepted := p.accepted + 1, replaced := p.replaced + 1, stopSlot := i }
    | .appended b => stageRunOver s k rest
        { p with batch := b, accepted := p.accepted + 1, stopSlot := i }

/-- R42: STAGE_RUN is checked as a whole, and then slot by slot. -/
def serveStageRun (k : Client) (first count : Byte) (values : List Value) : Service := fun s =>
  if count.toNat < 1 ∨ 8 < count.toNat ∨ 255 < first.toNat + count.toNat - 1 then
    refuse s .badValue
  else match s.openContext k with
    | none => refuse s .noBatch
    | some n =>
      let slots := slotRange first.toNat count.toNat
      let p := stageRunOver s k (slots.zip values)
        { batch := s.context k n, accepted := 0, replaced := 0, stop := .ok,
          stopSlot := slotNo first }
      answer (begin (s.setContext k n p.batch)) .ok
        [byteOf p.accepted, byteOf p.replaced, p.stop.code, byteOf p.stopSlot.val]

/-! ### UNSTAGE and ABORT (R43) -/

/-- R43: UNSTAGE removes the record for the slot from the OPEN batch. -/
def serveUnstage (k : Client) (slot : Byte) : Service := fun s =>
  match s.openContext k with
  | none => refuse s .noBatch
  | some n =>
    let i := slotNo slot
    let b := s.context k n
    match b.records.find? (fun r => r.slot == i) with
    | none => refuse s .badValue
    | some r =>
      let rest := b.records.filter (fun r => r.slot != i)
      answer (begin (s.setContext k n (b.withRecords rest))) .ok
        (valueBytes r.value ++ [byteOf rest.length])

/-- R43: ABORT frees the OPEN batch, with no event. -/
def serveAbort (k : Client) : Service := fun s =>
  match s.openContext k with
  | none => refuse s .noBatch
  | some n =>
    answer (begin (s.setContext k n Batch.empty)) .ok [byteOf (s.context k n).id]

/-! ### SEAL (R44 to R48) -/

/-- R46: what check 5 makes of a target: out of horizon, too late, or the target with the slipped
flag. -/
inductive Resolution where
  | outOfHorizon
  | tooLate
  | target (epoch : Epoch) (slipped : Bool)
deriving DecidableEq, Repr

/-- R46: the target of a batch with target spec, policy and max lead `m`, judged against `c`. -/
def resolveTarget (kind : TargetKind) (epoch : Epoch) (policy : Policy) (m : Nat) (c : Epoch) :
    Resolution :=
  let earliest := c + 1 + BitVec.ofNat 16 m
  let d := distance c epoch
  match kind with
  | .next => .target earliest false
  | .absolute =>
    if d = 0 ∨ Config.horizon < d then .outOfHorizon
    else if d < 1 + m then
      match policy with
      | .strict => .tooLate
      | .slip => .target earliest true
    else .target epoch false

/-- R47 step 1: the pending record of a staged record at a position, for target `t`. -/
def pendingOf (s : State) (r : BatchRef) (t : Epoch) (position : Nat) (x : Staged) :
    PendingRecord :=
  { slot := x.slot, value := x.value, target := t,
    dispatch := t - BitVec.ofNat 16 (s.slot x.slot).lead, batch := r, position := position,
    state := .waiting }

/-- R47 step 1: the pending records of a staged list, positions counting from `position`. -/
def pendingList (s : State) (r : BatchRef) (t : Epoch) : Nat → List Staged → List PendingRecord
  | _, [] => []
  | position, x :: rest => pendingOf s r t position x :: pendingList s r t (position + 1) rest

/-- R47 step 2: the batch context becomes ARMED. -/
def Batch.armed (b : Batch) (t : Epoch) (slipped : Bool) : Batch :=
  { b with state := .armed, records := [], target := t, slipped := slipped,
           count := b.records.length, onTime := 0, late := 0, failed := 0, superseded := 0,
           dropped := 0, unresolved := b.records.length }

/-- R47: a SEAL that passes every check. -/
def sealTaken (k : Client) (n : Fin 4) (t : Epoch) (slipped : Bool) (s : State) : State :=
  let b := s.context k n
  let r : BatchRef := { client := k, id := b.id }
  let s' := s.setStore (s.store ++ pendingList s r t 1 b.records)
  (s'.setContext k n (b.armed t slipped)).setSealList (s.batches.sealList ++ [r])

/-- R45: the checks of SEAL in order, and R47. -/
def serveSeal (k : Client) : Service := fun s =>
  match s.openContext k with
  | none => refuse s .noBatch
  | some n =>
    let b := s.context k n
    if b.records = [] then refuse s .empty
    else match b.records.find? (fun x => !(s.slot x.slot).defined) with
      | some x => refuse s .undefinedSlot [byteOf x.slot.val]
      | none =>
        match b.records.find? (fun x => s.heldByOther k x.slot) with
        | some x => refuse s .notOwner [byteOf x.slot.val]
        | none =>
          match resolveTarget b.kind b.epoch b.policy b.maxLead s.gen.c with
          | .outOfHorizon => refuse s .outOfHorizon (halfBytes s.gen.c)
          | .tooLate => refuse s .tooLate (halfBytes s.gen.c)
          | .target t slipped =>
            match b.records.find? (fun x =>
                s.store.any (fun y => y.slot == x.slot && y.target == t)) with
            | some x => refuse s .conflict [byteOf x.slot.val]
            | none =>
              if Config.storePlaces < s.store.length + b.records.length then
                refuse s .storeFull [byteOf (Config.storePlaces - s.store.length)]
              else
                answer (begin (sealTaken k n t slipped s)) .ok
                  ([byteOf b.id] ++ halfBytes t ++ [flagByte slipped])

/-! ### CANCEL and READ_BATCH (R54, R56) -/

/-- R54: CANCEL withdraws an ARMED batch and removes its pending records, with no event. -/
def serveCancel (k : Client) (id : Byte) : Service := fun s =>
  let r : BatchRef := { client := k, id := id.toNat }
  match s.sealedContext r with
  | none => refuse s .noBatch
  | some n =>
    if (s.context k n).state = .releasing then refuse s .tooLate
    else
      let removed := s.store.countP (fun x => x.batch == r)
      let s' := s.setStore (s.store.filter (fun x => x.batch != r))
      answer (begin ((s'.setContext k n Batch.empty).setSealList
        (s.batches.sealList.filter (· != r)))) .ok [id, byteOf removed]

/-- R48, R56: a batch's position in the seal list, 1 for the oldest; 0 when it is not on it. -/
def State.sealPosition (s : State) (r : BatchRef) : Nat :=
  match s.batches.sealList.findIdx? (· == r) with
  | some j => j + 1
  | none => 0

/-- R56: READ_BATCH reports one of the requester's live batches. -/
def serveReadBatch (k : Client) (id : Byte) : Service := fun s =>
  match s.findContext k (fun b => b.state != .free && b.id == id.toNat) with
  | none => refuse s .noBatch
  | some n =>
    answer (begin s) .ok
      (batchPayload (s.context k n) (s.sealPosition { client := k, id := id.toNat }))

/-- OPEN (R39). -/
def execOpen (k : Client) (tag target policy : Byte) (epoch : Half) (s : State) :
    Host.Outcome State Fault Refusal :=
  .next (request k (.openBatch k tag target policy epoch) (serveOpen k target policy epoch) s)

/-- STAGE (R40, R41). -/
def execStage (k : Client) (tag slot : Byte) (value : Value) (s : State) :
    Host.Outcome State Fault Refusal :=
  .next (request k (.stage k tag slot value) (serveStage k slot value) s)

/-- STAGE_RUN (R42). -/
def execStageRun (k : Client) (tag first count : Byte) (values : List Value) (s : State) :
    Host.Outcome State Fault Refusal :=
  .next (request k (.stageRun k tag first count values) (serveStageRun k first count values) s)

/-- UNSTAGE (R43). -/
def execUnstage (k : Client) (tag slot : Byte) (s : State) : Host.Outcome State Fault Refusal :=
  .next (request k (.unstage k tag slot) (serveUnstage k slot) s)

/-- ABORT (R43). -/
def execAbort (k : Client) (tag : Byte) (s : State) : Host.Outcome State Fault Refusal :=
  .next (request k (.abort k tag) (serveAbort k) s)

/-- SEAL (R45 to R47). -/
def execSeal (k : Client) (tag : Byte) (s : State) : Host.Outcome State Fault Refusal :=
  .next (request k (.sealBatch k tag) (serveSeal k) s)

/-- CANCEL (R54). -/
def execCancel (k : Client) (tag id : Byte) (s : State) : Host.Outcome State Fault Refusal :=
  .next (request k (.cancel k tag id) (serveCancel k id) s)

/-- READ_BATCH (R56). -/
def execReadBatch (k : Client) (tag id : Byte) (s : State) : Host.Outcome State Fault Refusal :=
  .next (request k (.readBatch k tag id) (serveReadBatch k id) s)

end Sys2Proof.Machine
end

