-- ==== Sys2Proof/Machine/Buses.lean ====
section
/-! DEFINITION. The device table and the bus engines (chapter 7): DEFINE_DEVICE, BUS_CONFIG,
BUS_RECOVER and READ_BUS, and the events of transfers, clock stretches and recoveries. -/

namespace Sys2Proof.Machine

open Sys2Proof

/-- The eight devices, in ascending order. -/
def allDevices : List DeviceNo := [0, 1, 2, 3, 4, 5, 6, 7]

/-- R128 steps 3 and 4: the record a DEFINE_DEVICE gives: none when a field is out of range. With
state ABSENT the record takes the pin-reset values, and the other fields are not looked at (R129). -/
def deviceOf (state bus address size retries : Byte) : Option Device :=
  if state = 0x00 then some Device.absent
  else if state = 0x01 then
    match busNo bus with
    | none => none
    | some b =>
      if address.toNat ≤ 127 ∧ (size = 0x01 ∨ size = 0x02) ∧ retries.toNat ≤ 3 then
        some { isPresent := true, bus := b, address := BitVec.ofNat 7 address.toNat,
               size := size.toNat, retries := retries.toNat }
      else none
  else none

/-- R128 step 5: the change that a device in use does not take. -/
def changesIdentity (old new : Device) : Bool :=
  (old.isPresent && !new.isPresent) || old.bus != new.bus || old.address != new.address ||
    old.size != new.size

/-- R128 step 6: another device has a PRESENT record with the same bus and target address. -/
def State.addressTaken (s : State) (d : DeviceNo) (r : Device) : Bool :=
  allDevices.any (fun j => j != d && (s.device j).isPresent && (s.device j).bus == r.bus &&
    (s.device j).address == r.address)

/-- R128, R129: DEFINE_DEVICE after the token test. -/
def serveDefineDevice (device state bus address size retries : Byte) : Service := fun s =>
  if s.gen.run ≠ .stopped then refuse s .wrongState
  else match deviceNo device, deviceOf state bus address size retries with
    | some d, some r =>
      if s.inUse d && changesIdentity (s.device d) r then refuse s .deviceBusy
      else if r.isPresent && s.addressTaken d r then refuse s .duplicateAddress
      else answer (begin (s.setDevice d r)) .ok
    | _, _ => refuse s .badValue

/-- R130: BUS_CONFIG after the token test. -/
def serveBusConfig (bus speed : Byte) : Service := fun s =>
  if s.gen.run ≠ .stopped then refuse s .wrongState
  else match busNo bus, speedOf speed with
    | some b, some v => answer (begin (s.setEngine b { s.engine b with speed := v })) .ok
    | _, _ => refuse s .badValue

/-- R139: BUS_RECOVER after the token test. -/
def serveBusRecover (k : Client) (bus : Byte) : Service := fun s =>
  match busNo bus with
  | none => refuse s .badValue
  | some b =>
    if (s.engine b).state ≠ .fault then refuse s .wrongState
    else answer (begin (s.setEngine b { s.engine b with
      state := .recovery, requester := some k, clock := (s.engine b).speed, xfer := none,
      stretching := false, stretchCount := 0, pulses := 0, sent := [] })) .ok

/-- R141: the PRESENT devices on a bus, in ascending order. -/
def State.presentOn (s : State) (b : BusNo) : List DeviceNo :=
  allDevices.filter (fun d => (s.device d).isPresent && (s.device d).bus == b)

/-- R141: READ_BUS. -/
def serveReadBus (bus : Byte) : Service := fun s =>
  match busNo bus with
  | none => refuse s .badValue
  | some b =>
    answer (begin s) .ok
      ([engineCode (s.engine b).state, speedCode (s.engine b).speed,
        byteOf (s.presentOn b).length] ++
       (s.presentOn b).flatMap (fun d => deviceEntry d (s.device d) (s.inUse d)))

/-- R114: the start stamp of a transfer. -/
def Generator.stamp (g : Generator) : Option Epoch := if g.run.inEpoch then some g.c else none

/-- R114: the first `n` entries of a queue become ON_BUS with the start stamp. -/
def handOver (n : Nat) (stamp : Option Epoch) (q : List Entry) : List Entry :=
  (q.take n).map (fun e => { e with onBus := true, stamp := stamp, attempts := 0 }) ++ q.drop n

/-- R131, R127: the transfer of a head entry and its run, with what the engine reads at its start. -/
def transferOf (r : Device) (head : Entry) (run : List Entry) : Transfer :=
  { device := head.device, register := head.register, limit := 1 + r.retries, made := 0,
    wire := attemptWire r head run }

/-- R132: whether bus `b`'s engine may start a transfer now. -/
def State.mayStart (s : State) (b : BusNo) : Bool :=
  (s.engine b).state == .idle && s.gen.startAllowed && !(s.queue b).isEmpty

/-- R114, R132, R137: the transfer at the head of bus `b`'s queue starts. -/
def startTransfer (b : BusNo) (dataLow : Bool) (s : State) : State :=
  match s.queue b with
  | [] => s
  | head :: rest =>
    let run := runBehind head rest
    let t := transferOf (s.device head.device) head run
    let e := { s.engine b with clock := (s.engine b).speed, sent := [] }
    let s := s.setQueue b (handOver (run.length + 1) s.gen.stamp (s.queue b))
    noteAttempts b (s.setEngine b (beginAttempt t dataLow e))

/-- The transfer in progress of an engine in TRANSFER whose stretch limit is not exceeded. -/
def Engine.attempting (e : Engine) : Option Transfer :=
  if e.state = .transfer ∧ e.limitExceeded = false then e.xfer else none

/-- R137: one clock pulse for each look that found DSDA low, and no more than nine. -/
def pulsesFor (lowLooks : Nat) : Nat := min lowLooks 9

/-- R136, R137: the stretch limit is exceeded on bus `b`, with `passed` items of the attempt, or pulses
of the recovery, on the wires: the attempt fails, or the recovery ends there with no STOP and the bus
is not freed. -/
def exceedStretch (b : BusNo) (passed : Nat) (s : State) : Work :=
  match (s.engine b).state, (s.engine b).xfer with
  | .transfer, some t =>
      begin (noteAttempts b (s.setEngine b { s.engine b with
        state := .recovery, xfer := some { t with made := t.made + 1 }, stretching := false,
        stretchCount := 0, pulses := 0, sent := (s.engine b).sent ++ t.wire.take passed }))
  | .recovery, _ => enterFault b (begin (s.setEngine b { s.engine b with
      pulses := pulsesFor passed,
      sent := (s.engine b).sent ++ pulseItems (pulsesFor passed) }))
  | _, _ => begin s

/-- R139: a recovery of BUS_RECOVER ends with the bus freed. -/
def recovered (b : BusNo) (w : Work) : Work :=
  let requester := (w.st.engine b).requester
  let w := w.update fun s => s.setEngine b { s.engine b with
    state := .idle, stretching := false, stretchCount := 0 }
  (reportBus b false requester w).update fun s =>
    s.setEngine b { s.engine b with requester := none }

/-- R137 to R139: the end of a recovery on bus `b`: its pulses, its STOP, and whether both lines are
high after it. -/
def endRecovery (b : BusNo) (lowLooks : Nat) (freed dataLow : Bool) (s : State) : Work :=
  let w := begin (s.setEngine b { s.engine b with
    pulses := pulsesFor lowLooks,
    sent := (s.engine b).sent ++ pulseItems (pulsesFor lowLooks) ++ [.stop] })
  if freed then
    match (s.engine b).xfer with
    | some t => retryOrFail b t dataLow w
    | none => recovered b w
  else enterFault b w

/-- DEFINE_DEVICE (R128, R129). -/
def execDefineDevice (k : Client) (tag device state bus address size retries : Byte) (s : State) :
    Host.Outcome State Fault Refusal :=
  .next (request k (.defineDevice k tag device state bus address size retries)
    (withToken k (serveDefineDevice device state bus address size retries)) s)

/-- BUS_CONFIG (R130). -/
def execBusConfig (k : Client) (tag bus speed : Byte) (s : State) :
    Host.Outcome State Fault Refusal :=
  .next (request k (.busConfig k tag bus speed) (withToken k (serveBusConfig bus speed)) s)

/-- BUS_RECOVER (R139). -/
def execBusRecover (k : Client) (tag bus : Byte) (s : State) : Host.Outcome State Fault Refusal :=
  .next (request k (.busRecover k tag bus) (withToken k (serveBusRecover k bus)) s)

/-- READ_BUS (R141). -/
def execReadBus (k : Client) (tag bus : Byte) (s : State) : Host.Outcome State Fault Refusal :=
  .next (request k (.readBus k tag bus) (serveReadBus bus) s)

/-- TRANSFER_START (R132): a command of its own (assumption 9). -/
def execTransferStart (b : BusNo) (dataLow : Bool) (s : State) :
    Host.Outcome State Fault Refusal :=
  .next (whenOperating s fun s => if s.mayStart b then startTransfer b dataLow s else s)

/-- ATTEMPT_NACK (R135): no further byte of the attempt is sent, and a STOP ends it. -/
def execAttemptNack (b : BusNo) (nack : Nack) (s : State) : Host.Outcome State Fault Refusal :=
  .next (whenOperating s fun s =>
    match (s.engine b).attempting with
    | none => s
    | some t => (retryOrFail b { t with made := t.made + 1 } nack.dataLow
        (begin (putOnWires b (nackedWire nack.byte t.wire) s))).finish)

/-- TRANSFER_END (R119, R131): the attempt completes with every byte acknowledged (assumption 18). -/
def execTransferEnd (b : BusNo) (read0 read1 read2 read3 : Byte) (s : State) :
    Host.Outcome State Fault Refusal :=
  .next (whenOperating s fun s =>
    match (s.engine b).attempting with
    | none => s
    | some t => (endTransfer b true [read0, read1, read2, read3] .idle
        (begin (putOnWires b t.wire s))).finish)

/-- STRETCH_LIMIT_EXCEEDED (R136): the stretch count of a stretch in progress has reached 2. -/
def execStretchLimitExceeded (stretch : LongStretch) (s : State) :
    Host.Outcome State Fault Refusal :=
  .next (whenOperating s fun s =>
    if (s.engine stretch.bus).limitExceeded then
      (exceedStretch stretch.bus stretch.passed s).finish
    else s)

/-- RECOVERY_END (R137). -/
def execRecoveryEnd (b : BusNo) (lowLooks : Nat) (dataHigh clockHigh dataLowAtStart : Bool)
    (s : State) : Host.Outcome State Fault Refusal :=
  .next (whenOperating s fun s =>
    if (s.engine b).state = .recovery ∧ (s.engine b).limitExceeded = false then
      (endRecovery b lowLooks (dataHigh && clockHigh) dataLowAtStart s).finish
    else s)

/-- STRETCH_END (R136): the target releases DSCL, so later ticks no longer count. A tick that came
first counts: a limit it exceeded stays exceeded. -/
def execStretchEnd (b : BusNo) (s : State) : Host.Outcome State Fault Refusal :=
  .next (whenOperating s fun s =>
    if (s.engine b).limitExceeded then s
    else s.setEngine b { s.engine b with stretching := false })

end Sys2Proof.Machine
end

