-- ==== Sys2Proof/Machine/EpochGenerator.lean ====
section
/-! DEFINITION. The Epoch Generator (chapter 5): SET_GEOMETRY, START, STOP, RESET_SCHEDULE and
READ_SCHEDULE, and the events of its lines, its window, its epochs and its trigger input. -/

namespace Sys2Proof.Machine

open Sys2Proof

/-- R89 step 3: whether the five items are valid together. -/
def geometryOk (lspan vspan wopen wclose : Nat) : Bool :=
  decide (32 ≤ lspan) && decide (lspan ≤ 4095) && decide (64 ≤ vspan) && decide (vspan ≤ 65535) &&
    decide (wopen ≤ 65531) && decide (4 ≤ wclose) && decide (wopen < wclose) &&
    decide (wclose ≤ vspan) && decide (4 ≤ wclose - wopen)

/-- R89: SET_GEOMETRY after the token test. -/
def serveSetGeometry (lspan vspan wopen wclose : Half) (edge : Byte) : Service := fun s =>
  if s.gen.run ≠ .stopped then refuse s .wrongState
  else match edgeOf edge with
    | none => refuse s .badGeometry
    | some e =>
      if !geometryOk lspan.toNat vspan.toNat wopen.toNat wclose.toNat then refuse s .badGeometry
      else answer (begin (s.setGen { s.gen with
        lspan := lspan.toNat, vspan := vspan.toNat, wopen := wopen.toNat, wclose := wclose.toNat,
        edge := e })) .ok

/-- R96 step 4: the DEFINED general slots with prime = yes, in ascending order. -/
def State.primeSlots (s : State) : List SlotNo :=
  (slotsFrom 256 0).filter (fun i => !isLocal i && (s.slot i).defined && (s.slot i).prime)
where
  /-- The slots from `first` on, `n` of them as far as slot 255. -/
  slotsFrom : Nat → Nat → List SlotNo
    | 0, _ => []
    | n + 1, first =>
      if h : first < 256 then ⟨first, h⟩ :: slotsFrom n (first + 1) else []

/-- R96 steps 3 and 4: the run state becomes PRIMING, the prime list is built and PRIME entries are
placed. -/
def beginPriming (s : State) : State :=
  let s := outputsInactive (s.setGen { s.gen with run := .priming, line := 0, window := .shut })
  placePrimes (s.setGen { s.gen with
    primeList := s.primeSlots, primesOutstanding := s.primeSlots.length })

/-- R96: START after the token test. -/
def serveStart (k : Client) (mode : Byte) (epoch : Half) : Service := fun s =>
  if s.gen.run ≠ .stopped then refuse s .wrongState
  else match modeOf mode with
    | none => refuse s .badValue
    | some m =>
      let w := begin (s.setGen { s.gen with mode := m, startEpoch := epoch, issuer := some k })
      let w := (dropStale epoch w).update beginPriming
      answer (if w.st.gen.primesOutstanding = 0 then endPriming w else w) .accepted

/-- R101: STOP AT_END in RUNNING. -/
def stopAtEnd (k : Client) (s : State) : State :=
  s.setGen { s.gen with run := .stopping, issuer := some k }

/-- R101: what a taken STOP does to the schedule, by run state and option. -/
def stopSchedule (k : Client) (option : StopOption) (s : State) : State :=
  match s.gen.run, option with
  | .running, .atEnd => stopAtEnd k s
  | .stopping, .atEnd => s
  | .priming, _ => setIssuer none (enterStopped (abandonPrimes s))
  | _, _ => setIssuer none (enterStopped s)

/-- R101: STOP after the token test. -/
def serveStop (k : Client) (option : Byte) : Service := fun s =>
  if s.gen.run = .stopped then refuse s .wrongState
  else match stopOptionOf option with
    | none => refuse s .badValue
    | some o =>
      answer (reportSchedule .stopRequest (some k) (begin (stopSchedule k o s))) .ok

/-- R105: RESET_SCHEDULE after the token test. The generator stops (R103), the queues drop their
WAITING entries (R124), and every sealed batch completes with outcome RESET (R59, R83). The records
of the different blocks reach a client's queue in any order (R172). -/
def serveResetSchedule (k : Client) : Service := fun s =>
  let stopped := setIssuer none (enterStopped s)
  let fromQueues := freeMerge stopped.draws (resetOffers s 0) (resetOffers s 1)
  let books := resetBatchesAndStore (begin (resetQueueEntries stopped).draw)
  let report := reportSchedule .reset (some k) (begin books.st)
  let fromTables := freeMerge books.st.draws books.out report.out
  answer
    { st := report.st.draw.draw,
      out := freeMerge report.st.draw.draws fromQueues fromTables } .ok

/-- R108: READ_SCHEDULE. -/
def serveReadSchedule : Service := fun s =>
  answer (begin s) .ok (schedulePayload s.gen s.claims.token s.store.length)

/-- R90: the line counter advances, and the outputs compute their levels (R145). The last line does
not advance: its end is the end of the epoch (R93). -/
def advanceLine (s : State) : State :=
  if s.gen.run.inEpoch && decide (s.gen.line + 1 < s.gen.vspan) then
    let s := settleWindow s
    outputsAtLine (s.setGen { s.gen with line := s.gen.line + 1 })
  else s

/-- R102: a STOPPING epoch has run to its end. -/
def completeStop (w : Work) : Work :=
  (reportSchedule .stopComplete w.st.gen.issuer (w.update enterStopped)).update (setIssuer none)

/-- R93: the epoch ends when line VSPAN − 1 is complete. -/
def endEpoch (s : State) : Work :=
  let s := settleWindow s
  match s.gen.run with
  | .running =>
    match s.gen.mode with
    | .free => startEpochNow (s.gen.c + 1) (begin s)
    | .triggered =>
      if s.gen.latch then
        startEpochNow (s.gen.c + 1) (begin (s.setGen { s.gen with latch := false }))
      else begin (waitForTrigger s)
  | .stopping => completeStop (begin s)
  | .stopped | .priming | .waitTrigger => begin s

/-- R94: a trigger, by run state, mode and latch. -/
def takeTrigger (s : State) : Work :=
  match s.gen.run, s.gen.mode with
  | .waitTrigger, _ => startEpochNow (s.gen.c + 1) (begin s)
  | .running, .triggered =>
    if s.gen.latch then
      let n := if s.gen.overruns < 65535 then s.gen.overruns + 1 else 65535
      offerWhere (fun _ q => q.sched) (.triggerOverrun s.gen.c n)
        (begin (s.setGen { s.gen with overruns := n }))
    else begin (s.setGen { s.gen with latch := true })
  | _, _ => begin s

/-- R94: an edge is a trigger when it is of the selected kind and TRIG held the opposite level for at
least 3 REFCLK cycles before it. -/
def Generator.isTrigger (g : Generator) (edge : Edge) (heldFor : Nat) : Bool :=
  edge == g.edge && decide (3 ≤ heldFor)

/-- SET_GEOMETRY (R89). -/
def execSetGeometry (k : Client) (tag : Byte) (lspan vspan wopen wclose : Half) (edge : Byte)
    (s : State) : Host.Outcome State Fault Refusal :=
  .next (request k (.setGeometry k tag lspan vspan wopen wclose edge)
    (withToken k (serveSetGeometry lspan vspan wopen wclose edge)) s)

/-- START (R96). -/
def execStart (k : Client) (tag mode : Byte) (epoch : Half) (s : State) :
    Host.Outcome State Fault Refusal :=
  .next (request k (.start k tag mode epoch) (withToken k (serveStart k mode epoch)) s)

/-- STOP (R101). -/
def execStop (k : Client) (tag option : Byte) (s : State) : Host.Outcome State Fault Refusal :=
  .next (request k (.stop k tag option) (withToken k (serveStop k option)) s)

/-- RESET_SCHEDULE (R105). -/
def execResetSchedule (k : Client) (tag : Byte) (s : State) : Host.Outcome State Fault Refusal :=
  .next (request k (.resetSchedule k tag) (withToken k (serveResetSchedule k)) s)

/-- READ_SCHEDULE (R108). -/
def execReadSchedule (k : Client) (tag : Byte) (s : State) : Host.Outcome State Fault Refusal :=
  .next (request k (.readSchedule k tag) serveReadSchedule s)

/-- LINE_ADVANCE (R90). -/
def execLineAdvance (s : State) : Host.Outcome State Fault Refusal :=
  .next (whenOperating s advanceLine)

/-- WINDOW_OPEN (R91): at line W_open of the epoch in progress. -/
def execWindowOpen (s : State) : Host.Outcome State Fault Refusal :=
  .next (whenOperating s fun s => if s.gen.openDue then handWindowOpen s else s)

/-- WINDOW_CLOSE (R91, R117): at line W_close of the epoch in progress, or at its end. -/
def execWindowClose (s : State) : Host.Outcome State Fault Refusal :=
  .next (whenOperating s fun s => if s.gen.closeDue then handWindowClose s else s)

/-- EPOCH_END (R93): when the last line of an epoch in progress is complete. -/
def execEpochEnd (s : State) : Host.Outcome State Fault Refusal :=
  .next (whenOperating s fun s =>
    if s.gen.run.inEpoch && s.gen.line + 1 == s.gen.vspan then (endEpoch s).finish else s)

/-- TRIGGER (R94): an edge on TRIG. -/
def execTrigger (edge : Edge) (heldFor : Nat) (s : State) : Host.Outcome State Fault Refusal :=
  .next (whenOperating s fun s =>
    if s.gen.isTrigger edge heldFor then (takeTrigger s).finish else s)

end Sys2Proof.Machine
end

