-- ==== Sys2Proof/Machine/EventRequests.lean ====
section
/-! DEFINITION. The requests of the Event Queues (chapter 10): FETCH and SUBSCRIBE. -/

namespace Sys2Proof.Machine

open Sys2Proof

/-- R170: the queue after a FETCH of `n` records at epoch `c`: the oldest records leave, and OVERFLOW
is appended when records were lost and at least one left. -/
def EventQueue.fetch (q : EventQueue) (n : Nat) (c : Epoch) : EventQueue :=
  let q' := { q with records := q.records.drop n }
  if (q.records.take n).isEmpty || q.lost == 0 then q'
  else { q'.take c (.overflow q.lost) with lost := 0 }

/-- R170: FETCH. -/
def serveFetch (k : Client) (count : Byte) : Service := fun s =>
  if count ≠ 0x01 ∧ count ≠ 0x02 then refuse s .badValue
  else
    let q := s.eventQueue k
    let taken := q.records.take count.toNat
    let q' := q.fetch count.toNat s.gen.c
    answer (begin (s.setEventQueue k q')) .ok
      ([byteOf taken.length, byteOf q'.records.length] ++ taken.flatMap recordBytes)

/-- R169: the queue after a SUBSCRIBE. -/
def EventQueue.subscribe (q : EventQueue) (set divider : Byte) : EventQueue :=
  let mark := set.extractLsb' 2 1 == 1#1
  { q with sched := set.extractLsb' 0 1 == 1#1, bus := set.extractLsb' 1 1 == 1#1, mark := mark,
           divider := if mark then divider.toNat else 0, counter := 0 }

/-- R169: whether a set names only SCHED, BUS and MARK, with a divider of 1 to 255 for MARK. -/
def subscriptionOk (set divider : Byte) : Bool :=
  set.extractLsb' 3 5 == 0#5 && !(set.extractLsb' 2 1 == 1#1 && divider == 0x00)

/-- R169: SUBSCRIBE. -/
def serveSubscribe (k : Client) (set divider : Byte) : Service := fun s =>
  let q := s.eventQueue k
  if !subscriptionOk set divider then refuse s .badValue
  else answer (begin (s.setEventQueue k (q.subscribe set divider))) .ok
    [setByte q, byteOf q.divider]

/-- FETCH (R170). -/
def execFetch (k : Client) (tag count : Byte) (s : State) : Host.Outcome State Fault Refusal :=
  .next (request k (.fetch k tag count) (serveFetch k count) s)

/-- SUBSCRIBE (R169). -/
def execSubscribe (k : Client) (tag set divider : Byte) (s : State) :
    Host.Outcome State Fault Refusal :=
  .next (request k (.subscribe k tag set divider) (serveSubscribe k set divider) s)

end Sys2Proof.Machine
end

