-- ==== Sys2Proof/Machine/Outputs.lean ====
section
/-! DEFINITION. The request of the Timing Outputs (chapter 8): READ_OUTPUTS. -/

namespace Sys2Proof.Machine

open Sys2Proof

/-- R152: READ_OUTPUTS gives every pin level and selected flag, bit k for TOk. -/
def serveReadOutputs : Service := fun s =>
  answer (begin s) .ok
    (countBytes (flagField (s.outputs.toList.map (·.high))) ++
      countBytes (flagField (s.outputs.toList.map (·.selected))))

/-- READ_OUTPUTS (R152). -/
def execReadOutputs (k : Client) (tag : Byte) (s : State) : Host.Outcome State Fault Refusal :=
  .next (request k (.readOutputs k tag) serveReadOutputs s)

end Sys2Proof.Machine
end

