-- ==== Sys2Proof/Machine/Ports.lean ====
section
/-! DEFINITION. The host ports (chapter 9): DETACH, and the messages, polls, reads, code bytes and
frame starts at the ports' pins. -/

namespace Sys2Proof.Machine

open Sys2Proof

/-! ### DETACH (R165) -/

/-- R34: the Claim Table's part of DETACH. -/
def detachClaims (k : Client) (s : State) : State :=
  let s := releaseAll k s
  let s := if s.claims.token = some k then s.setToken none else s
  s.setLease k { setting := 0, counter := 0 }

/-- R60: the Batch Contexts' part of DETACH. -/
def detachBatch (k : Client) (s : State) : State :=
  match s.openContext k with
  | none => s
  | some n => s.setContext k n Batch.empty

/-- R173: the Event Queues' part of DETACH: the next sequence alone is kept. -/
def EventQueue.detach (q : EventQueue) : EventQueue :=
  { EventQueue.reset with nextSequence := q.nextSequence }

/-- R165: each block acts on client k's standing state in turn. -/
def detachClient (k : Client) (s : State) : State :=
  let s := allBuses.foldl (detachQueue k) (detachBatch k (detachClaims k s))
  s.setEventQueue k (s.eventQueue k).detach

/-- R165: DETACH, which is never refused. -/
def serveDetach (k : Client) : Service := fun s => answer (begin (detachClient k s)) .ok

/-! ### The events at a port's pins (R154 to R161) -/

/-- R154, R178: what a condition does at an UNDETERMINED port. A START with HSEL_N high locks it, unless
it stands in a transaction that was under way at the end of start-up, which the port ignores up to its
STOP, or HSEL_N was low then: such a port stays UNDETERMINED until HSEL_N rises and falls again. A
falling HSEL_N edge begins a four-wire frame at once. -/
def Port.detect (p : Port) (condition : FramingCondition) : Port :=
  if p.lock ≠ .undetermined then p
  else match condition with
    | .startCondition true => if p.underWay || p.awaitsFall then p else { p with lock := .twoWire }
    | .startCondition false => p
    | .selectFalls =>
      { p with lock := .fourWire, frame := some p.response, underWay := false, awaitsFall := false }
    | .stopCondition => { p with underWay := false }

/-- DETACH (R165). -/
def execDetach (k : Client) (tag : Byte) (s : State) : Host.Outcome State Fault Refusal :=
  .next (request k (.detach k tag) (serveDetach k) s)

/-- NONE (R159): a poll, with `clocks` clocks after its code byte, shifts out the response copy and
reloads the lease. -/
def execPollNone (k : Client) (clocks : Nat) (s : State) : Host.Outcome State Fault Refusal :=
  .next (whenOperating s fun s =>
    if (s.port k).lock = .fourWire then
      reloadLease k (s.setPort k 
        ((s.port k).endTransaction (.fourWire (Fin.ofNat 8 clocks)) (1 + clocks / 8)))
    else s)

/-- MESSAGE_TAKEN (R160, R164): a message ends at the port. A port that does not take it refuses it by
R161, as the pins would show (assumption 4). -/
def execMessageTaken (k : Client) (arrival : Arrival) (bytes : List Byte) (s : State) :
    Host.Outcome State Fault Refusal :=
  .next (whenOperating s (messageEnds k arrival.via bytes arrival.beforeGrant))

/-- MESSAGE_REFUSED (R161): a message ends at a WORKING port. A port that is READY for it takes it by
R160, as the pins would show (assumption 4). -/
def execMessageRefused (k : Client) (via : Carrier) (bytes : List Byte) (s : State) :
    Host.Outcome State Fault Refusal :=
  .next (whenOperating s (messageEnds k via bytes false))

/-- READ_TRANSACTION (R157): the response buffer from byte 0, then 00h. -/
def execReadTransaction (k : Client) (address : BitVec 7) (count : Nat) (s : State) :
    Host.Outcome State Fault Refusal :=
  .next (whenOperating s fun s =>
    let p := s.port k
    if p.hears (.twoWire address) then
      s.setPort k { p with shown := padTo count p.response, shownBits := [] }
    else s)

/-- FRAMING_DETECTION (R154). -/
def execFramingDetection (k : Client) (condition : FramingCondition) (s : State) :
    Host.Outcome State Fault Refusal :=
  .next (whenOperating s fun s => s.setPort k ((s.port k).detect condition))

/-- TWO_WIRE_CODE_BYTE (R156): acknowledged only when READY, which fixes the message's fate. -/
def execTwoWireCodeByte (k : Client) (address : BitVec 7) (s : State) :
    Host.Outcome State Fault Refusal :=
  .next (whenOperating s fun s =>
    let p := s.port k
    if p.hears (.twoWire address) then
      s.setPort k { p with judged := some (p.state == .ready) }
    else s)

/-- FOUR_WIRE_FRAME_START (R158): the port takes the copy of the response buffer it shifts out. -/
def execFourWireFrameStart (k : Client) (s : State) : Host.Outcome State Fault Refusal :=
  .next (whenOperating s fun s =>
    let p := s.port k
    if p.lock = .fourWire then s.setPort k { p with frame := some p.response } else s)

end Sys2Proof.Machine
end

