-- ==== Sys2Proof/Machine/Queues.lean ====
section
/-! DEFINITION. The requests of the Dispatch Queues (chapter 6): READ_DEVICE and READ_QUEUE. -/

namespace Sys2Proof.Machine

open Sys2Proof

/-- R110, R121: the PROBE entry of an accepted READ_DEVICE. DESIGN CHOICE (assumption 27): section 6.1
gives a PROBE entry no value; here it is 0, and nothing reads it. -/
def probeEntry (k : Client) (tag : Byte) (d : DeviceNo) (register : Half) (width : Nat)
    (order : ByteOrder) : Entry :=
  { kind := .probe, device := d, register := register, width := width, order := order, value := 0,
    slot := none, deadline := none, late := false, attempts := 0, origin := .client k tag,
    discarded := false, onBus := false, stamp := none }

/-- R121: the checks of READ_DEVICE in order, and its effect. -/
def serveReadDevice (k : Client) (tag device : Byte) (register : Half) (width order : Byte) :
    Service := fun s =>
  match deviceNo device, widthOk width.toNat, orderOf order with
  | some d, true, some o =>
    let r := s.device d
    if !r.isPresent then refuse s .noDevice
    else if !registerFits r register then refuse s .badValue
    else if s.probes k = Config.probeLimit then refuse s .probeLimit
    else if !s.hasRoom r.bus then refuse s .queueFull
    else
      answer (begin ((append r.bus (probeEntry k tag d register width.toNat o) s).setProbes k
        (s.probes k + 1))) .accepted
  | _, _, _ => refuse s .badValue

/-- R123: the five bytes that describe a head entry: kind, slot, state, late flag. -/
def headBytes (e : Entry) : List Byte :=
  [kindCode e.kind, match e.slot with | some i => byteOf i.val | none => 0x00,
   flagByte e.onBus, flagByte e.late]

/-- R123: the same for an empty queue: kind none and slot 0; the state and late flag of a head that
is not there are FREE VALUES. -/
def emptyHeadBytes (draw : Nat) : List Byte :=
  [0x00, 0x00, flagByte (Config.emptyHeadOnBus draw), flagByte (Config.emptyHeadLate draw)]

/-- R123: READ_QUEUE reports one bus's queue. -/
def serveReadQueue (bus : Byte) : Service := fun s =>
  match busNo bus with
  | none => refuse s .badValue
  | some b =>
    let tail := [byteOf (s.deferredSet b).length, engineCode (s.engine b).state]
    match s.queue b with
    | [] => answer (begin s.draw) .ok ([0x00] ++ emptyHeadBytes s.draws ++ tail)
    | e :: rest => answer (begin s) .ok ([byteOf (rest.length + 1)] ++ headBytes e ++ tail)

/-- READ_DEVICE (R121). -/
def execReadDevice (k : Client) (tag device : Byte) (register : Half) (width order : Byte)
    (s : State) : Host.Outcome State Fault Refusal :=
  .next (request k (.readDevice k tag device register width order)
    (serveReadDevice k tag device register width order) s)

/-- READ_QUEUE (R123). -/
def execReadQueue (k : Client) (tag bus : Byte) (s : State) : Host.Outcome State Fault Refusal :=
  .next (request k (.readQueue k tag bus) (serveReadQueue bus) s)

end Sys2Proof.Machine
end

