-- ==== Sys2Proof/Machine/Reset.lean ====
section
/-! DEFINITION. Reset and start-up (section 12.3): PIN_RESET, RESET_RELEASE and STARTUP_END. -/

namespace Sys2Proof.Machine

open Sys2Proof

/-- R177: every block at its pin-reset values, held there. The free values drawn so far stay drawn,
and the commands that wait are the outside world's. -/
def heldInReset (s : State) : State :=
  { State.reset with phase := .held, draws := s.draws, pending := s.pending }

/-- R153, R178: the strap address of a port whose ADDR pins read `a`. -/
def strapOf (a : BitVec 2) : BitVec 7 := 0x58#7 + a.zeroExtend 7

/-- R178: port `k` samples its strap address, ignores a two-wire transaction that is under way up to its
STOP, and with HSEL_N low awaits that pin's next falling edge. -/
def sampleStrap (k : Client) (pins : PortPins) (s : State) : State :=
  s.setPort k { s.port k with
    strap := strapOf pins.addr, underWay := pins.underWay, awaitsFall := pins.selectLow }

/-- PIN_RESET (R177). A RESET_N pulse shorter than 1 µs acts as a full pin reset or not at all, which
is a FREE VALUE. -/
def execPinReset (cause : ResetCause) (s : State) : Host.Outcome State Fault Refusal :=
  match cause with
  | .resetLow => .next (heldInReset s)
  | .powerUp => .next (heldInReset s)
  | .supplyFall => .next (heldInReset s)
  | .shortPulse =>
    .next (if Config.shortPulseResets s.draws then heldInReset s.draw else s.draw)

/-- RESET_RELEASE (R178): the rising edge of RESET_N, or the end of the power-up hold, begins the
start-up interval. A part that is not held in reset has no such edge. -/
def execResetRelease (s : State) : Host.Outcome State Fault Refusal :=
  .next (if s.phase = .held then { s with phase := .startup } else s)

/-- STARTUP_END (R178): the ports sample their straps and begin framing detection. -/
def execStartupEnd (pins0 pins1 pins2 pins3 : PortPins) (s : State) :
    Host.Outcome State Fault Refusal :=
  .next (if s.phase = .startup then
    sampleStrap 0 pins0 (sampleStrap 1 pins1 (sampleStrap 2 pins2
      (sampleStrap 3 pins3 { s with phase := .operating })))
  else s)

end Sys2Proof.Machine
end

