-- ==== Sys2Proof/Machine/SlotTable.lean ====
section
/-! DEFINITION. The requests of the Slot Table (chapter 1): DEFINE_SLOT, UNDEFINE_SLOT, READ_SLOT
and WRITE_NOW. -/

namespace Sys2Proof.Machine

open Sys2Proof

/-- R13: the record that a taken DEFINE_SLOT writes. -/
def definedSlot (d : Descriptor) (register : Half) (min max initial : Value) : Slot :=
  { defined := true, device := some d.device, register := register, width := d.width,
    order := d.order, cls := d.cls, lead := d.lead, min := min, max := max, prime := d.prime,
    live := initial, liveState := .uncertain, applied := none }

/-- R12, R13: the checks of DEFINE_SLOT after the token test, and its effect. -/
def serveDefineSlot (k : Client) (slot device : Byte) (register : Half) (format kind : Byte)
    (min max initial : Value) : Service := fun s =>
  let i := slotNo slot
  if isLocal i then refuse s .fixedSlot
  else if s.gen.run ≠ .stopped then refuse s .wrongState
  else if s.heldByOther k i then refuse s .heldBy [clientByte (s.owner i)]
  else if s.busy i then refuse s .slotBusy
  else match descriptorOf device format kind min max initial with
    | none => refuse s .badValue
    | some d =>
      if !(s.device d.device).isPresent then refuse s .noDevice
      else if !registerFits (s.device d.device) register then refuse s .badValue
      else answer (begin (s.setSlot i (definedSlot d register min max initial))) .ok

/-- R14: the checks of UNDEFINE_SLOT after the token test, and its effect. -/
def serveUndefineSlot (k : Client) (slot : Byte) : Service := fun s =>
  let i := slotNo slot
  if isLocal i then refuse s .fixedSlot
  else if s.gen.run ≠ .stopped then refuse s .wrongState
  else if !(s.slot i).defined then refuse s .undefinedSlot
  else if s.heldByOther k i then refuse s .heldBy [clientByte (s.owner i)]
  else if s.pendingCount i ≠ 0 ∨ s.queuedCount i ≠ 0 then refuse s .slotBusy
  else answer (begin ((s.setSlot i Slot.undefined).setOwner i none)) .ok

/-- R15: READ_SLOT returns the slot's whole record and changes nothing. -/
def serveReadSlot (slot : Byte) : Service := fun s =>
  let i := slotNo slot
  answer (begin s) .ok
    (slotPayload (s.slot i) (s.owner i) (s.pendingCount i) (s.queuedCount i))

/-- R16: the checks of WRITE_NOW in order, and the NOW entry it hands to the dispatch queues. A slot
of class IMMEDIATE or STANDBY always has a device (R9); one without is answered as a local slot. -/
def serveWriteNow (k : Client) (tag slot : Byte) (value : Value) : Service := fun s =>
  let i := slotNo slot
  let r := s.slot i
  if !r.defined then refuse s .undefinedSlot
  else if r.cls = .epoch then refuse s .wrongClass
  else if r.cls = .standby ∧ s.gen.run ≠ .stopped then refuse s .wrongState
  else if !s.admissible i value then refuse s .outOfRange
  else if s.heldByOther k i then refuse s .notOwner
  else match r.device with
    | none => refuse s .wrongClass
    | some d =>
      let b := (s.device d).bus
      if !s.hasRoom b && !(s.queue b).any (·.waitsFor i) then refuse s .queueFull
      else
        let w := supersede b i (begin s)
        answer (w.update (append b (slotEntry .now i r d value (.client k tag)))) .accepted

/-- DEFINE_SLOT (R12, R13). -/
def execDefineSlot (k : Client) (tag slot device : Byte) (register : Half) (format kind : Byte)
    (min max initial : Value) (s : State) : Host.Outcome State Fault Refusal :=
  .next (request k (.defineSlot k tag slot device register format kind min max initial)
    (withToken k (serveDefineSlot k slot device register format kind min max initial)) s)

/-- UNDEFINE_SLOT (R14). -/
def execUndefineSlot (k : Client) (tag slot : Byte) (s : State) :
    Host.Outcome State Fault Refusal :=
  .next (request k (.undefineSlot k tag slot) (withToken k (serveUndefineSlot k slot)) s)

/-- READ_SLOT (R15). -/
def execReadSlot (k : Client) (tag slot : Byte) (s : State) : Host.Outcome State Fault Refusal :=
  .next (request k (.readSlot k tag slot) (serveReadSlot slot) s)

/-- WRITE_NOW (R16). -/
def execWriteNow (k : Client) (tag slot : Byte) (value : Value) (s : State) :
    Host.Outcome State Fault Refusal :=
  .next (request k (.writeNow k tag slot value) (serveWriteNow k tag slot value) s)

end Sys2Proof.Machine
end

