-- ==== Sys2Proof/Machine/Dispatch.lean ====
section
/-! DEFINITION. The meaning of every command, one arm per constructor of Instr. -/

namespace Sys2Proof.Machine

open Sys2Proof

def exec (i : Instr) (s : State) : Host.Outcome State Fault Refusal :=
  match i with
  | .defineSlot k tag slot device register format kind min max initial => Sys2Proof.Machine.execDefineSlot k tag slot device register format kind min max initial s
  | .undefineSlot k tag slot => Sys2Proof.Machine.execUndefineSlot k tag slot s
  | .readSlot k tag slot => Sys2Proof.Machine.execReadSlot k tag slot s
  | .writeNow k tag slot value => Sys2Proof.Machine.execWriteNow k tag slot value s
  | .claim k tag first count => Sys2Proof.Machine.execClaim k tag first count s
  | .release k tag first count => Sys2Proof.Machine.execRelease k tag first count s
  | .claimSchedule k tag => Sys2Proof.Machine.execClaimSchedule k tag s
  | .releaseSchedule k tag => Sys2Proof.Machine.execReleaseSchedule k tag s
  | .revoke k tag named => Sys2Proof.Machine.execRevoke k tag named s
  | .setLease k tag setting => Sys2Proof.Machine.execSetLease k tag setting s
  | .openBatch k tag target policy epoch => Sys2Proof.Machine.execOpen k tag target policy epoch s
  | .stage k tag slot value => Sys2Proof.Machine.execStage k tag slot value s
  | .stageRun k tag first count values => Sys2Proof.Machine.execStageRun k tag first count values s
  | .unstage k tag slot => Sys2Proof.Machine.execUnstage k tag slot s
  | .abort k tag => Sys2Proof.Machine.execAbort k tag s
  | .sealBatch k tag => Sys2Proof.Machine.execSeal k tag s
  | .cancel k tag id => Sys2Proof.Machine.execCancel k tag id s
  | .readBatch k tag id => Sys2Proof.Machine.execReadBatch k tag id s
  | .setGeometry k tag lspan vspan wopen wclose edge => Sys2Proof.Machine.execSetGeometry k tag lspan vspan wopen wclose edge s
  | .start k tag mode epoch => Sys2Proof.Machine.execStart k tag mode epoch s
  | .stop k tag option => Sys2Proof.Machine.execStop k tag option s
  | .resetSchedule k tag => Sys2Proof.Machine.execResetSchedule k tag s
  | .readSchedule k tag => Sys2Proof.Machine.execReadSchedule k tag s
  | .readOutputs k tag => Sys2Proof.Machine.execReadOutputs k tag s
  | .readDevice k tag device register width order => Sys2Proof.Machine.execReadDevice k tag device register width order s
  | .readQueue k tag bus => Sys2Proof.Machine.execReadQueue k tag bus s
  | .defineDevice k tag device state bus address size retries => Sys2Proof.Machine.execDefineDevice k tag device state bus address size retries s
  | .busConfig k tag bus speed => Sys2Proof.Machine.execBusConfig k tag bus speed s
  | .busRecover k tag bus => Sys2Proof.Machine.execBusRecover k tag bus s
  | .readBus k tag bus => Sys2Proof.Machine.execReadBus k tag bus s
  | .fetch k tag count => Sys2Proof.Machine.execFetch k tag count s
  | .subscribe k tag set divider => Sys2Proof.Machine.execSubscribe k tag set divider s
  | .detach k tag => Sys2Proof.Machine.execDetach k tag s
  | .pollNone k clocks => Sys2Proof.Machine.execPollNone k clocks s
  | .messageTaken k arrival bytes => Sys2Proof.Machine.execMessageTaken k arrival bytes s
  | .messageRefused k via bytes => Sys2Proof.Machine.execMessageRefused k via bytes s
  | .readTransaction k address count => Sys2Proof.Machine.execReadTransaction k address count s
  | .framingDetection k condition => Sys2Proof.Machine.execFramingDetection k condition s
  | .housekeepingTick held0 held1 => Sys2Proof.Machine.execHousekeepingTick held0 held1 s
  | .leaseLapse k => Sys2Proof.Machine.execLeaseLapse k s
  | .lineAdvance => Sys2Proof.Machine.execLineAdvance s
  | .windowOpen => Sys2Proof.Machine.execWindowOpen s
  | .windowClose => Sys2Proof.Machine.execWindowClose s
  | .epochEnd => Sys2Proof.Machine.execEpochEnd s
  | .trigger edge heldFor => Sys2Proof.Machine.execTrigger edge heldFor s
  | .transferStart b dataLow => Sys2Proof.Machine.execTransferStart b dataLow s
  | .attemptNack b nack => Sys2Proof.Machine.execAttemptNack b nack s
  | .transferEnd b read0 read1 read2 read3 => Sys2Proof.Machine.execTransferEnd b read0 read1 read2 read3 s
  | .stretchLimitExceeded stretch => Sys2Proof.Machine.execStretchLimitExceeded stretch s
  | .recoveryEnd b lowLooks dataHigh clockHigh dataLowAtStart => Sys2Proof.Machine.execRecoveryEnd b lowLooks dataHigh clockHigh dataLowAtStart s
  | .pinReset cause => Sys2Proof.Machine.execPinReset cause s
  | .resetRelease => Sys2Proof.Machine.execResetRelease s
  | .startupEnd pins0 pins1 pins2 pins3 => Sys2Proof.Machine.execStartupEnd pins0 pins1 pins2 pins3 s
  | .twoWireCodeByte k address => Sys2Proof.Machine.execTwoWireCodeByte k address s
  | .fourWireFrameStart k => Sys2Proof.Machine.execFourWireFrameStart k s
  | .stretchEnd b => Sys2Proof.Machine.execStretchEnd b s

end Sys2Proof.Machine
end

