-- ==== Sys2Proof/Safety.lean ====
section
/-! DEFINITION. What counts as a safe step, the laws of the manual that every step keeps, and the
conditions under which a request is in service, in the terms the statements use. -/

namespace Sys2Proof.Machine

open Sys2Proof

/-- A step is safe when it answers a next state: no fault and no refusal. -/
def Goes (o : Host.Outcome State Fault Refusal) : Prop := ∃ t, o = .next t

/-- `inv` is kept by every step, from every state that has it. -/
def KeptByEveryStep (inv : State → Prop) : Prop :=
  ∀ s t : State, inv s → step s = .next t → inv t

/-! ### Requests -/

/-- R163: the request `i` of client `k` is in service: the part is out of reset, the arbiter has
granted port k, and the request buffer holds the message of `i`. -/
abbrev InService (k : Client) (i : Instr) (s : State) : Prop :=
  s.phase = .operating ∧ s.host.inService = some k ∧ (s.port k).request = some (messageOf i)

/-- The tag of a request (byte 1 of its message). -/
def tagOf (i : Instr) : Byte := (messageOf i).getD 1 0

/-- The code of a request (byte 0 of its message). -/
def codeOf (i : Instr) : Byte := (messageOf i).getD 0 0

/-- R21: slot `i` has no owner, or client `k` is its owner. -/
abbrev FreeFor (k : Client) (s : State) (i : SlotNo) : Prop := s.owner i = none ∨ s.owner i = some k

/-- Context `n` is client k's OPEN batch: the lowest context that is OPEN. -/
abbrev OpenAt (k : Client) (n : Fin 4) (s : State) : Prop :=
  (s.context k n).state = .opened ∧ ∀ m : Fin 4, m < n → (s.context k m).state ≠ .opened

/-- The offers of one event record to the clients with property `p`, in the order 0 to 3. -/
def offersTo (p : Client → Bool) (s : State) (e : Event) : List Offer :=
  (([0, 1, 2, 3] : List Client).filter p).map (fun j =>
    { client := j, stamp := s.gen.c, event := e })

/-- Section 2.3: the requests that need the schedule token. -/
def needsToken : Instr → Bool
  | .defineSlot .. | .undefineSlot .. | .revoke .. | .setGeometry .. | .start .. | .stop ..
  | .resetSchedule .. | .defineDevice .. | .busConfig .. | .busRecover .. => true
  | .readSlot .. | .writeNow .. | .claim .. | .release .. | .claimSchedule ..
  | .releaseSchedule .. | .setLease .. | .openBatch .. | .stage .. | .stageRun .. | .unstage ..
  | .abort .. | .sealBatch .. | .cancel .. | .readBatch .. | .readSchedule .. | .readOutputs ..
  | .readDevice .. | .readQueue .. | .readBus .. | .fetch .. | .subscribe .. | .detach ..
  | .pollNone .. | .messageTaken .. | .messageRefused .. | .readTransaction ..
  | .framingDetection .. | .housekeepingTick .. | .leaseLapse .. | .lineAdvance | .windowOpen
  | .windowClose | .epochEnd | .trigger .. | .transferStart .. | .attemptNack .. | .transferEnd ..
  | .stretchLimitExceeded .. | .recoveryEnd .. | .pinReset .. | .resetRelease | .startupEnd ..
  | .twoWireCodeByte .. | .fourWireFrameStart .. | .stretchEnd .. => false

/-- R12, R89, R96, R128, R130: the requests that are taken only while the schedule is STOPPED. -/
def needsStopped : Instr → Bool
  | .setGeometry .. | .start .. | .defineDevice .. | .busConfig .. => true
  | .defineSlot _ _ slot .. => !isLocal (slotNo slot)
  | .undefineSlot _ _ slot => !isLocal (slotNo slot)
  | .readSlot .. | .writeNow .. | .claim .. | .release .. | .claimSchedule .. | .revoke ..
  | .releaseSchedule .. | .setLease .. | .openBatch .. | .stage .. | .stageRun .. | .unstage ..
  | .abort .. | .sealBatch .. | .cancel .. | .readBatch .. | .readSchedule .. | .readOutputs ..
  | .readDevice .. | .readQueue .. | .readBus .. | .fetch .. | .subscribe .. | .detach ..
  | .stop .. | .resetSchedule .. | .busRecover ..
  | .pollNone .. | .messageTaken .. | .messageRefused .. | .readTransaction ..
  | .framingDetection .. | .housekeepingTick .. | .leaseLapse .. | .lineAdvance | .windowOpen
  | .windowClose | .epochEnd | .trigger .. | .transferStart .. | .attemptNack .. | .transferEnd ..
  | .stretchLimitExceeded .. | .recoveryEnd .. | .pinReset .. | .resetRelease | .startupEnd ..
  | .twoWireCodeByte .. | .fourWireFrameStart .. | .stretchEnd .. => false

/-! ### Records, entries and books, as the rules word them -/

/-- R63, R64: no two pending records have one slot and one target, or one batch and one position. -/
abbrev RecordsDistinct (s : State) : Prop :=
  s.store.Pairwise (fun x y =>
    (x.slot ≠ y.slot ∨ x.target ≠ y.target) ∧ (x.batch ≠ y.batch ∨ x.position ≠ y.position))

/-- R71: the WRITE entry that a record brings to the queue of its bus, with the given late flag.
Its report, a field that section 6.1 does not give it, is the model's choice (assumption 27). -/
def writeEntryFor (s : State) (late : Bool) (x : PendingRecord) : Entry :=
  { kind := .write, device := (s.slot x.slot).device.getD 0, register := (s.slot x.slot).register,
    width := (s.slot x.slot).width, order := (s.slot x.slot).order, value := x.value,
    slot := some x.slot, deadline := some x.dispatch, late := late, attempts := 0,
    origin := .record x.batch x.position, discarded := false, onBus := false, stamp := none }

/-- R73: the deferred records that the places beside `kept` entries on bus `b` let in, oldest first. -/
def enteringBehind (s : State) (b : BusNo) (kept : List Entry) : List PendingRecord :=
  (s.deferredSet b).take (32 - kept.length)

/-- R73, R74: the entry of a record that enters its queue by refill: late unless its dispatch epoch is
the epoch in progress and its window has not closed. -/
def refillEntryFor (s : State) (x : PendingRecord) : Entry :=
  writeEntryFor s
    (decide (¬ (s.gen.run.inEpoch = true ∧ s.gen.c = x.dispatch ∧ s.gen.window ≠ .closed))) x

/-- R68: the records of `l` as they stand once those of `taken` are RELEASED. -/
def withReleased (taken l : List PendingRecord) : List PendingRecord :=
  l.map (fun x => if x ∈ taken then { x with state := .released } else x)

/-- R52: where `l` names the batches of resolved records in their order, the batch that the `j`-th of
them completes, with its context: the `j`-th is the last one that was unresolved. -/
def State.completedAt (s : State) (l : List (Option BatchRef)) (j : Nat) :
    Option (BatchRef × Batch) :=
  match l[j]? with
  | some (some r) =>
    match s.sealedContext r with
    | some n =>
      if (l.take (j + 1)).count (some r) = (s.context r.client n).unresolved
      then some (r, s.context r.client n) else none
    | none => none
  | _ => none

/-- R52: the BATCH_DONE of a batch whose books are closed, to its client. -/
def batchDoneOf (r : BatchRef) (c : Epoch) (b : Batch) : Offer :=
  { client := r.client, stamp := c,
    event := .batchDone b.id (if b.onTime = b.count then .applied else .degraded) b.target b.onTime
      b.late b.failed (b.superseded + b.dropped) }

/-- R110: the batch of the record that a WRITE entry carries. -/
def Entry.batchOf (e : Entry) : Option BatchRef :=
  match e.kind, e.origin with
  | .write, .record r _ => some r
  | _, _ => none

/-- R51, R118: the books of a batch after the end of a transfer that carried the entries `own` of it. -/
def Batch.afterTransfer (b : Batch) (done : Bool) (own : List Entry) : Batch :=
  { b with
    onTime := b.onTime + if done then own.countP (fun e =>
      !e.late && e.stamp.isSome && e.stamp == e.deadline) else 0
    late := b.late + if done then own.countP (fun e =>
      e.late || e.stamp.isNone || e.stamp != e.deadline) else 0
    failed := b.failed + if done then 0 else own.length
    unresolved := b.unresolved - own.length }

/-- R17, R52, R119, R122: what the end of the `j`-th entry of a transfer offers. -/
def offeredAt (s : State) (done : Bool) (bytes : List Byte) (es : List Entry) (j : Nat) :
    List Offer :=
  match es[j]? with
  | none => []
  | some e =>
    match e.kind, e.origin with
    | .now, .client k tag =>
      match e.slot with
      | some i => if e.discarded then [] else
          [{ client := k, stamp := s.gen.c,
             event := .writeDone tag i (if done then .done else .failed) }]
      | none => []
    | .probe, .client k tag => if e.discarded then [] else
        [{ client := k, stamp := s.gen.c,
           event := if done
             then .probeResult tag e.device .done (probeValue e.order (bytes.take e.width))
             else .probeResult tag e.device .failed 0 }]
    | .write, .record _ _ =>
      match s.completedAt (es.map Entry.batchOf) j with
      | some (r, b) =>
        [batchDoneOf r s.gen.c (b.afterTransfer done (es.filter (fun x => x.batchOf == some r)))]
      | none => []
    | _, _ => []

/-- R17, R52, R119, R122: what the end of a transfer that carries `es` offers, in queue order. -/
def offeredByTransfer (s : State) (done : Bool) (bytes : List Byte) (es : List Entry) :
    List Offer :=
  (List.range es.length).flatMap (offeredAt s done bytes es)

/-- R109, R115: bus `b`'s transfer carries the entries `es`, with `rest` behind them on the queue. The
entries have different slots, their records have left the deferred set, no batch has more of them than
it has records unresolved, and their end does not end priming or make it fail. -/
structure TransferCarries (b : BusNo) (done : Bool) (es rest : List Entry) (s : State) : Prop where
  queue : s.queue b = es ++ rest
  carried : es ≠ [] ∧ (∀ e ∈ es, e.onBus = true) ∧ ∀ e ∈ rest, e.onBus = false
  slots : (es.filterMap (·.slot)).Nodup
  records : RecordsDistinct s ∧ ∀ x ∈ s.store, x.state = .deferred →
    ∀ e ∈ es, e.origin ≠ .record x.batch x.position
  books : ∀ (r : BatchRef) (n : Fin 4), s.sealedContext r = some n →
    es.countP (fun e => e.batchOf == some r) ≤ (s.context r.client n).unresolved
  priming : s.gen.run = .priming → s.gen.primeList = [] ∧
    ((∀ e ∈ es, e.kind = .prime → e.discarded = true) ∨
      done = true ∧ es.countP (fun e => e.kind == .prime && !e.discarded) < s.gen.primesOutstanding)

/-- R7, R51, R52, R73, R77, R119, R120, R122: the results of bus `b`'s transfer, handed on from `s` to
`u`: slots, books, records, probe counts and primes, and the refill of the freed places. The engine of
bus `b` and the event queues are left open. -/
structure ResultsHandedOn (b : BusNo) (done : Bool) (es rest : List Entry) (s u : State) : Prop where
  queue : u.queue b = rest ++ (enteringBehind s b rest).map (refillEntryFor s)
  otherQueue : ∀ c : BusNo, c ≠ b → u.queue c = s.queue c
  store : u.store = withReleased (enteringBehind s b rest) (s.store.filter (fun x =>
    !es.any (fun e => e.kind == .write && e.origin == .record x.batch x.position)))
  slot : ∀ e ∈ es, ∀ i : SlotNo, e.kind ≠ .probe → e.slot = some i →
    u.slot i = { s.slot i with
      live := e.value, liveState := if done then .valid else .uncertain,
      applied := match done, e.kind with
        | true, .write => e.stamp.map (fun c => c + BitVec.ofNat 16 (s.slot i).lead)
        | true, .now => e.stamp
        | _, _ => none }
  otherSlots : ∀ i : SlotNo, (∀ e ∈ es, e.kind ≠ .probe → e.slot ≠ some i) → u.slot i = s.slot i
  probes : ∀ k : Client, u.probes k = s.probes k - es.countP (fun e => e.kind == .probe && e.isOf k)
  books : ∀ (r : BatchRef) (n : Fin 4) (own : List Entry), s.sealedContext r = some n →
    own = es.filter (fun e => e.batchOf == some r) →
    (own.length < (s.context r.client n).unresolved →
      u.context r.client n = (s.context r.client n).afterTransfer done own) ∧
    (own ≠ [] → own.length = (s.context r.client n).unresolved →
      u.context r.client n = Batch.empty)
  otherBooks : ∀ (k : Client) (n : Fin 4), (∀ r : BatchRef, r.client = k →
    s.sealedContext r = some n → ∀ e ∈ es, e.batchOf ≠ some r) → u.context k n = s.context k n
  sealList : u.batches.sealList = s.batches.sealList.filter (fun r =>
    !(List.range es.length).any (fun j =>
      (s.completedAt (es.map Entry.batchOf) j).any (fun y => y.1 == r)))
  gen : u.gen = { s.gen with
    primesOutstanding := s.gen.primesOutstanding -
      if s.gen.run = .priming then es.countP (fun e => e.kind == .prime && !e.discarded) else 0 }
  engine : ∀ c : BusNo, c ≠ b → u.engine c = s.engine c
  frame : u = { s with
    slots := u.slots, batches := { u.batches with previousId := s.batches.previousId },
    store := u.store, gen := u.gen, queues := u.queues, events := u.events,
    buses := { s.buses with engine := u.buses.engine } }

/-- R124: what the WAITING entries of bus `b` that RESET_SCHEDULE removes tell client `j`, in queue
order. -/
def droppedReports (s : State) (b : BusNo) (j : Client) : List Event :=
  ((s.queue b).filter (fun e => !e.onBus)).filterMap (fun e =>
    match e.kind, e.origin, e.slot with
    | .now, .client k tag, some i => if k = j then some (.writeDone tag i .dropped) else none
    | .probe, .client k tag, _ =>
      if k = j then some (.probeResult tag e.device .dropped 0) else none
    | _, _, _ => none)

/-! ### Laws of the blocks -/

/-- R64, R109: no store or dispatch queue holds more than it has places for. -/
def StoresWithinCapacity (s : State) : Prop :=
  (∀ b : BusNo, (s.queue b).length ≤ 32) ∧ s.store.length ≤ 192

/-- Section 10.1: what an event queue's fields may hold. -/
def EventQueue.WithinRules (q : EventQueue) : Prop :=
  q.records.length ≤ 16 ∧ q.lost ≤ 255 ∧
    (q.mark = true → 1 ≤ q.divider ∧ q.divider ≤ 255 ∧ q.counter < q.divider) ∧
    (q.mark = false → q.divider = 0 ∧ q.counter = 0)

/-- Section 10.1, R166: every client's event queue is within its rules. -/
def EventQueuesWithinRules (s : State) : Prop := ∀ k : Client, (s.eventQueue k).WithinRules

/-- R86, R88, R90: the generator's fields against its run state and its geometry. -/
def GeneratorWithinRules (s : State) : Prop :=
  geometryOk s.gen.lspan s.gen.vspan s.gen.wopen s.gen.wclose = true ∧
    s.gen.line < s.gen.vspan ∧
    (s.gen.run ≠ .priming → s.gen.primeList = [] ∧ s.gen.primesOutstanding = 0) ∧
    (s.gen.run ≠ .priming → s.gen.run ≠ .stopping → s.gen.issuer = none) ∧
    (s.gen.run.inEpoch = false →
      s.gen.line = 0 ∧ s.gen.latch = false ∧ s.gen.window = .shut) ∧
    (s.gen.run = .waitTrigger → s.gen.mode = .triggered)

/-- R149: while STOPPED, PRIMING or WAIT_TRIGGER every output is unselected and inactive; R147: every
pin level follows from the active flag and the held program's polarity. -/
def OutputsWithinRules (s : State) : Prop :=
  (s.gen.run.inEpoch = false → ∀ k : Fin 12,
    (s.output k).selected = false ∧ (s.output k).active = false) ∧
  ∀ k : Fin 12, (s.output k).high = pinLevel (s.output k).program.polarity (s.output k).active

/-- R153, R154: a port is WORKING exactly while its request buffer holds a request of 2 to 36 bytes, an
UNDETERMINED port holds none, its response buffer holds 3 to 32 bytes, and the port in service is
WORKING. -/
def PortsWithinRules (s : State) : Prop :=
  (∀ k : Client, ((s.port k).state = .working ↔ (s.port k).request.isSome = true) ∧
      ((s.port k).lock = .undetermined → (s.port k).state = .ready) ∧
      (∀ bytes, (s.port k).request = some bytes → 2 ≤ bytes.length ∧ bytes.length ≤ 36) ∧
      3 ≤ (s.port k).response.length ∧ (s.port k).response.length ≤ 32) ∧
    ∀ k : Client, s.host.inService = some k → (s.port k).state = .working

/-- R20, section 2.1: every owned slot is DEFINED, and every lease setting is 0 or 8 to 255 with its
counter no higher. -/
def ClaimTableWithinRules (s : State) : Prop :=
  (∀ i : SlotNo, (s.owner i).isSome = true → (s.slot i).defined = true) ∧
    ∀ k : Client, ((s.lease k).setting = 0 ∨ 8 ≤ (s.lease k).setting ∧ (s.lease k).setting ≤ 255) ∧
      (s.lease k).counter ≤ (s.lease k).setting

/-- R36, R38, R51: what one batch context may hold by its state. While it is sealed, the five outcome
counts and the unresolved records sum to its record count. -/
def Batch.WithinRules (b : Batch) : Prop :=
  (b.state = .free → b = Batch.empty) ∧
    (b.state ≠ .free → 1 ≤ b.id ∧ b.id ≤ 255) ∧
    (b.state = .opened → b.target = 0 ∧ b.slipped = false ∧ b.count = 0 ∧ b.onTime = 0 ∧
      b.late = 0 ∧ b.failed = 0 ∧ b.superseded = 0 ∧ b.dropped = 0 ∧ b.unresolved = 0) ∧
    (b.state = .opened → b.maxLead = maxLeadOf b.records) ∧
    b.records.length ≤ 32 ∧ (b.records.map (·.slot)).Nodup ∧
    (b.isSealed = true →
      b.onTime + b.late + b.failed + b.superseded + b.dropped + b.unresolved = b.count ∧
        b.count ≤ 32 ∧ 1 ≤ b.unresolved)

/-- R36 to R38, R51, R64: every context is within its rules, a client has at most one OPEN batch and no two
live batches with one id, and no two pending records have one slot and one target. -/
def BatchesWithinRules (s : State) : Prop :=
  (∀ (k : Client) (n : Fin 4), (s.context k n).WithinRules) ∧
    (∀ k : Client, s.previousId k ≤ 255) ∧
    (∀ (k : Client) (m n : Fin 4), (s.context k m).state = .opened →
      (s.context k n).state = .opened → m = n) ∧
    (∀ (k : Client) (m n : Fin 4), (s.context k m).state ≠ .free →
      (s.context k n).state ≠ .free → (s.context k m).id = (s.context k n).id → m = n) ∧
    s.store.Pairwise (fun x y => x.slot ≠ y.slot ∨ x.target ≠ y.target)

/-- R9: the descriptor the hardware fixes for slot `i`, if it is a local slot. -/
def LocalDescriptor (i : SlotNo) (r : Slot) : Prop :=
  r.defined = true ∧ r.device = none ∧ r.register = 0 ∧ r.cls = .epoch ∧ r.lead = 0 ∧
    r.prime = false ∧ r.order = .msbFirst ∧ r.min = 0 ∧ r.liveState = .valid ∧
    (isForm i = false → r.width = 4 ∧ r.max = 0xFFFFFFFF) ∧
    (isForm i = true → r.width = 2 ∧ r.max = 0xF413)

/-- R9, R142: local slots keep their descriptor and are VALID, no entry is queued for one, and every
output's held program is the decoded live values of its two slots. -/
def LocalSlotsWithinRules (s : State) : Prop :=
  (∀ i : SlotNo, isLocal i = true → LocalDescriptor i (s.slot i)) ∧
    (∀ b : BusNo, ∀ e ∈ s.queue b, ∀ i : SlotNo, e.slot = some i → isLocal i = false) ∧
    ∀ k : Fin 12, (s.output k).program = s.liveProgram k

/-- R4: every live value, and every value on its way to a slot, is admissible for the slot; a value
staged for a slot that has been undefined since waits for its removal (R38). Local slots have no
device, so nothing is queued for them. -/
def ValuesAdmissible (s : State) : Prop :=
  (∀ i : SlotNo, s.admissible i (s.slot i).live = true) ∧
    (∀ x ∈ s.store, s.admissible x.slot x.value = true) ∧
    (∀ b : BusNo, ∀ e ∈ s.queue b, ∀ i : SlotNo, e.slot = some i →
      s.admissible i e.value = true) ∧
    ∀ (k : Client) (n : Fin 4), (s.context k n).state = .opened →
      ∀ x ∈ (s.context k n).records, (s.slot x.slot).defined = true →
        s.admissible x.slot x.value = true

/-- R67, R127, R129: every DEFINED slot with a device is on a PRESENT device whose register addresses
reach it; every pending record is for a DEFINED slot; every entry is for a PRESENT device of its
queue's bus and, if it names a slot, for a DEFINED slot of that device; the prime list names DEFINED
slots, in PRIMING alone; and no two PRESENT devices share bus and address. -/
def NothingDangles (s : State) : Prop :=
  (∀ (i : SlotNo) (d : DeviceNo), (s.slot i).defined = true → (s.slot i).device = some d →
      (s.device d).isPresent = true ∧ registerFits (s.device d) (s.slot i).register = true) ∧
    (∀ x ∈ s.store, (s.slot x.slot).defined = true) ∧
    (∀ b : BusNo, ∀ e ∈ s.queue b,
      (s.device e.device).isPresent = true ∧ (s.device e.device).bus = b ∧
      ∀ i : SlotNo, e.slot = some i →
        (s.slot i).defined = true ∧ (s.slot i).device = some e.device) ∧
    (∀ i ∈ s.gen.primeList, (s.slot i).defined = true) ∧
    (s.gen.run ≠ .priming → s.gen.primeList = []) ∧
    ∀ d e : DeviceNo, (s.device d).isPresent = true → (s.device e).isPresent = true →
      (s.device d).bus = (s.device e).bus → (s.device d).address = (s.device e).address → d = e

/-- R72, R73, R109: a queue holds at most one WAITING WRITE or NOW entry for one slot, and the store at
most one DEFERRED record; a slot with a DEFERRED record has no such entry; and a bus has deferred records
only while its queue is full. The class of a slot with a sealed or staged change (R2) keeps direct writes
away from it. -/
def QueuesWithinRules (s : State) : Prop :=
  (∀ (b : BusNo) (i : SlotNo), (s.queue b).countP (fun e =>
      !e.onBus && (e.kind == .write || e.kind == .now) && e.slot == some i) ≤ 1) ∧
    (∀ i : SlotNo, s.store.countP (fun x => x.slot == i && x.state == .deferred) ≤ 1) ∧
    (∀ x ∈ s.store, x.state = .deferred → ∀ b : BusNo, ∀ e ∈ s.queue b, e.onBus = false →
      (e.kind = .write ∨ e.kind = .now) → e.slot ≠ some x.slot) ∧
    (∀ b : BusNo, s.deferredSet b ≠ [] → 32 ≤ (s.queue b).length) ∧
    (∀ x ∈ s.store, (s.slot x.slot).cls = .epoch) ∧
    ∀ (k : Client) (n : Fin 4), (s.context k n).state = .opened →
      ∀ x ∈ (s.context k n).records, (s.slot x.slot).defined = true → (s.slot x.slot).cls = .epoch

/-- R109, R131: a queue's ON_BUS entries are at its front, and there are none without a transfer in
progress. -/
def FrontOnBus (q : List Entry) (t : Option Transfer) : Prop :=
  ∃ front back : List Entry, q = front ++ back ∧ (∀ e ∈ front, e.onBus = true) ∧
    (∀ e ∈ back, e.onBus = false) ∧ (t = none → front = [])

/-- R109, R131, R136: the engines' transfers against their states and their queues. -/
def TransfersWithinRules (s : State) : Prop :=
  ∀ b : BusNo,
    FrontOnBus (s.queue b) (s.engine b).xfer ∧
    ((s.engine b).state = .idle ∨ (s.engine b).state = .fault → (s.engine b).xfer = none) ∧
    ((s.engine b).state = .transfer → (s.engine b).xfer.isSome = true) ∧
    ((s.engine b).requester.isSome = true →
      (s.engine b).state = .recovery ∧ (s.engine b).xfer = none) ∧
    (s.engine b).stretchCount ≤ 2

end Sys2Proof.Machine
end

