-- ==== Sys2Proof/Certificates/Slice0/Obligations.lean ====
section
/-! DEFINITION. The statements for the provers: what a step runs, how requests read and wait, what
each command does and leaves alone, and the laws every step keeps. Statements about a request suppose
it in service (`InService`, R163); its answer and its place at the port end with `endService`, which
`Obligations.ServiceEndsAndGrantsTheNext` describes. -/

open Sys2Proof Sys2Proof.Machine

/-! ### The queue of commands and the messages -/

/-- Step runs the command at the front of the queue on the queue's rest. That it idles on an empty
queue is the model's choice (log 3). -/
def Obligations.StepRunsTheFrontCommand : Prop :=
  (∀ (c : Instr) (rest : List Instr) (s : State), s.pending = c :: rest →
      step s = exec c { s with pending := rest }) ∧
    ∀ s : State, s.pending = [] → step s = .next s

/-- Sections 11.1 and 11.2: the message of every well-formed request reads back as that request, with
every field at every value it can carry. -/
def Obligations.RequestMessagesReadBack : Prop :=
  ∀ (k : Client) (i : Instr), requestClient i = some k → i.wf = true →
    decodeRequest k (messageOf i) = some i

/-- R174: the messages that pass the port's checks are those that read as a request; the message of
that request is the one read, and the request is well formed. -/
def Obligations.MessagesThatPassReadAsTheirRequest : Prop :=
  ∀ (k : Client) (bytes : List Byte),
    (parseRefusal bytes = none ↔ (decodeRequest k bytes).isSome = true) ∧
    ∀ i : Instr, decodeRequest k bytes = some i →
      messageOf i = bytes ∧ requestClient i = some k ∧ i.wf = true

/-! ### Taking, waiting, granting and the end of a service -/

/-- R154, R156, R160, R161, R163: a request that arrives at a locked READY port while another port's
request is in service is taken, answered WORKING, and waits. One at a WORKING port, or one whose code
byte was not acknowledged, is refused. At an UNDETERMINED port no request arrives.
That a request row stands for its message's end is the model's choice (log 8). The fields that record
what a port showed are the model's own (log 19). -/
def Obligations.RequestWaitsBehindAnother : Prop :=
  ∀ (i : Instr) (k : Client) (p q : Port) (s : State), requestClient i = some k → i.wf = true →
    s.phase = .operating → p = s.port k →
    (p.lock = .undetermined → p.request ≠ some (messageOf i) → exec i s = .next s) ∧
    ((p.lock = .twoWire ∧ q = { p with judged := none } ∨
        p.lock = .fourWire ∧ q = { p with
          frame := none,
          shown := ((p.frame.getD p.response) ++
            List.replicate (messageOf i).length 0x00).take (messageOf i).length,
          shownBits := [] }) →
      (∀ j : Client, p.state = .ready → (p.lock = .fourWire ∨ p.judged ≠ some false) →
        s.host.inService = some j → j ≠ k →
        exec i s = .next ((reloadLease k s).setPort k
          { q with
            state := .working, request := some (messageOf i),
            response := [0x02, tagOf i, codeOf i] })) ∧
      ((p.state = .working ∧ p.request ≠ some (messageOf i) ∨
          p.state = .ready ∧ p.lock = .twoWire ∧ p.judged = some false ∧
            s.host.inService ≠ some k) →
        exec i s = .next ((reloadLease k s).setPort k q)))

/-- R160, R163, R164: a request that arrives at a locked port while every port is READY is taken and
granted at once, and is then served as a request in service. For a request taken before the arbiter
granted, the first waiting port from the pointer is granted: the request is served when that is its own
port, and waits otherwise.
That a request row is the arrival and the service together is the model's choice (log 8), and so is that
it finds a grant that is still to be made (log 25). The fields that record what a port showed are the
model's own (log 19). -/
def Obligations.RequestIsGrantedAtOnce : Prop :=
  (∀ (i : Instr) (k : Client) (p q : Port) (s u : State), requestClient i = some k → i.wf = true →
    s.phase = .operating → s.host.inService = none → (∀ j : Client, (s.port j).state = .ready) →
    p = s.port k →
    (p.lock = .twoWire ∧ p.judged ≠ some false ∧ q = { p with judged := none } ∨
      p.lock = .fourWire ∧ q = { p with
        frame := none,
        shown := ((p.frame.getD p.response) ++
          List.replicate (messageOf i).length 0x00).take (messageOf i).length,
        shownBits := [] }) →
    u = (reloadLease k { s with host :=
          { s.host with pointer := k + 1, inService := some k } }).setPort k
      { q with
        state := .working, request := some (messageOf i),
        response := [0x02, tagOf i, codeOf i] } →
    InService k i u ∧ exec i s = exec i u) ∧
  ∀ (i : Instr) (k : Client) (n : Fin 4) (s u : State), requestClient i = some k →
    s.phase = .operating → s.host.inService = none → (s.port k).state = .working →
    (s.port k).request = some (messageOf i) →
    (s.port (s.host.pointer + n)).state = .working →
    (∀ m : Fin 4, m < n → (s.port (s.host.pointer + m)).state = .ready) →
    u = { s with host := { s.host with
      pointer := s.host.pointer + n + 1, inService := some (s.host.pointer + n) } } →
    (s.host.pointer + n = k → InService k i u ∧ exec i s = exec i u) ∧
    (s.host.pointer + n ≠ k → exec i s = .next u)

/-- R163: the end of a service writes the response, empties the request buffer and makes the port
READY; then the first waiting port from the pointer is granted and the pointer moves past it. -/
def Obligations.ServiceEndsAndGrantsTheNext : Prop :=
  ∀ (k : Client) (tag code : Byte) (reply : Reply) (s t : State),
    t = endService k tag code reply s →
    t = { s with host := t.host } ∧
    t.port k = { s.port k with
      state := .ready, request := none,
      response := [reply.status.code, tag, code] ++ reply.payload } ∧
    (∀ j : Client, j ≠ k → t.port j = s.port j) ∧
    ((∀ j : Client, j ≠ k → (s.port j).state = .ready) →
      t.host.inService = none ∧ t.host.pointer = s.host.pointer) ∧
    ∀ n : Fin 4, s.host.pointer + n ≠ k → (s.port (s.host.pointer + n)).state = .working →
      (∀ m : Fin 4, m < n → s.host.pointer + m = k ∨
        (s.port (s.host.pointer + m)).state = .ready) →
      t.host.inService = some (s.host.pointer + n) ∧ t.host.pointer = s.host.pointer + n + 1

/-- R24 and the state checks of R12, R14, R89, R96, R128 and R130: a request that needs the token is
refused NO_TOKEN without it, and one that needs STOPPED is then refused WRONG_STATE in another run
state; nothing changes but the port's answer. -/
def Obligations.RequestsWithoutTokenOrStoppedAreRefused : Prop :=
  ∀ (i : Instr) (k : Client) (s : State), requestClient i = some k → InService k i s →
    (needsToken i = true → s.claims.token ≠ some k →
      exec i s = .next (endService k (tagOf i) (codeOf i) ⟨.noToken, []⟩ s)) ∧
    (needsStopped i = true → s.claims.token = some k → s.gen.run ≠ .stopped →
      exec i s = .next (endService k (tagOf i) (codeOf i) ⟨.wrongState, []⟩ s))

/-! ### Slot Table -/

/-- R13 with the descriptor bytes of section 11.2: DEFINE_SLOT writes the whole record, UNCERTAIN, with
no applied epoch, and nothing else. -/
def Obligations.DefineSlotWritesTheRecord : Prop :=
  ∀ (k : Client) (tag slot : Byte) (d : DeviceNo) (register : Half) (width : Fin 5)
    (order : ByteOrder) (cls : SlotClass) (lead : Fin 4) (prime : Bool)
    (min max initial : Value) (format kind : Byte) (s : State),
    format = BitVec.ofNat 8
      (width.val + match order with | .msbFirst => 0 | .lsbFirst => 16) →
    kind = BitVec.ofNat 8
      ((match cls with | .epoch => 0 | .immediate => 1 | .standby => 2) + 4 * lead.val +
        if prime then 32 else 0) →
    InService k
      (.defineSlot k tag slot (BitVec.ofNat 8 d.val) register format kind min max initial) s →
    s.claims.token = some k → slot.toNat < 232 → s.gen.run = .stopped →
    FreeFor k s (slotNo slot) → s.busy (slotNo slot) = false →
    1 ≤ width.val → (lead.val = 0 ∨ cls = .epoch) →
    min.toNat ≤ initial.toNat → initial.toNat ≤ max.toNat → max.toNat < 2 ^ (8 * width.val) →
    (s.device d).isPresent = true → ((s.device d).size = 1 → register.toNat ≤ 255) →
    exec (.defineSlot k tag slot (BitVec.ofNat 8 d.val) register format kind min max initial) s =
      .next (endService k tag 0x10 ⟨.ok, []⟩ (s.setSlot (slotNo slot)
        { defined := true, device := some d, register := register, width := width.val,
          order := order, cls := cls, lead := lead.val, min := min, max := max, prime := prime,
          live := initial, liveState := .uncertain, applied := none }))

/-- R11, R14, R19: UNDEFINE_SLOT gives a general slot the pin-reset values and takes the requester's
claim off it; with a local slot it is refused FIXED_SLOT, and so is DEFINE_SLOT. -/
def Obligations.UndefineSlotReturnsTheSlot : Prop :=
  (∀ (k : Client) (i : Instr) (s : State), InService k i s → s.claims.token = some k →
    ((∃ tag slot : Byte, i = .undefineSlot k tag slot ∧ 232 ≤ slot.toNat) ∨
      ∃ (tag slot device : Byte) (register : Half) (format kind : Byte) (min max initial : Value),
        i = .defineSlot k tag slot device register format kind min max initial ∧
          232 ≤ slot.toNat) →
    exec i s = .next (endService k (tagOf i) (codeOf i) ⟨.fixedSlot, []⟩ s)) ∧
  ∀ (k : Client) (tag slot : Byte) (s : State), InService k (.undefineSlot k tag slot) s →
    s.claims.token = some k → slot.toNat < 232 → s.gen.run = .stopped →
    (s.slot (slotNo slot)).defined = true → FreeFor k s (slotNo slot) →
    s.pendingCount (slotNo slot) = 0 → s.queuedCount (slotNo slot) = 0 →
    exec (.undefineSlot k tag slot) s =
      .next (endService k tag 0x11 ⟨.ok, []⟩ ((s.setSlot (slotNo slot)
        { defined := false, device := some 0, register := 0, width := 1, order := .msbFirst,
          cls := .epoch, lead := 0, min := 0, max := 0, prime := false, live := 0,
          liveState := .uncertain, applied := none }).setOwner (slotNo slot) none))

/-- R15, R56: READ_SLOT and READ_BATCH report what stands and change nothing; READ_BATCH finds a live
batch by its id. -/
def Obligations.SlotAndBatchReadsChangeNothing : Prop :=
  (∀ (k : Client) (tag slot : Byte) (s : State), InService k (.readSlot k tag slot) s →
    exec (.readSlot k tag slot) s = .next (endService k tag 0x12
      ⟨.ok, slotPayload (s.slot (slotNo slot)) (s.owner (slotNo slot))
        (s.pendingCount (slotNo slot)) (s.queuedCount (slotNo slot))⟩ s)) ∧
  ∀ (k : Client) (tag id : Byte) (n : Fin 4) (position : Nat) (s : State),
    InService k (.readBatch k tag id) s →
    (s.context k n).state ≠ .free → (s.context k n).id = id.toNat →
    (∀ m : Fin 4, m < n → (s.context k m).state = .free ∨ (s.context k m).id ≠ id.toNat) →
    (({ client := k, id := id.toNat } : BatchRef) ∉ s.batches.sealList ∧ position = 0 ∨
      1 ≤ position ∧ s.batches.sealList[position - 1]? = some { client := k, id := id.toNat } ∧
      ∀ j < position - 1, s.batches.sealList[j]? ≠ some { client := k, id := id.toNat }) →
    exec (.readBatch k tag id) s = .next (endService k tag 0x37
      ⟨.ok, batchPayload (s.context k n) position⟩ s)

/-- R16, R111, R112: an accepted WRITE_NOW puts its NOW entry at the tail of its bus's queue, where it
removes a WAITING NOW entry for the slot, whose client is told; on a full queue without one it is
refused. -/
def Obligations.WriteNowEntersTheQueue : Prop :=
  ∀ (k : Client) (tag slot : Byte) (value : Value) (d : DeviceNo) (b : BusNo) (r : Slot) (e : Entry)
    (s : State),
    InService k (.writeNow k tag slot value) s → r = s.slot (slotNo slot) →
    r.defined = true → r.device = some d → b = (s.device d).bus →
    (r.cls = .immediate ∨ r.cls = .standby ∧ s.gen.run = .stopped) →
    s.admissible (slotNo slot) value = true → FreeFor k s (slotNo slot) →
    e = { kind := .now, device := d, register := r.register, width := r.width, order := r.order,
          value := value, slot := some (slotNo slot), deadline := none, late := false,
          attempts := 0, origin := .client k tag, discarded := false, onBus := false,
          stamp := none } →
    ((∀ x ∈ s.queue b, x.waitsFor (slotNo slot) = false) → (s.queue b).length < 32 →
      exec (.writeNow k tag slot value) s =
        .next (endService k tag 0x13 ⟨.accepted, []⟩ (s.setQueue b (s.queue b ++ [e])))) ∧
    ((∀ x ∈ s.queue b, x.waitsFor (slotNo slot) = false) → 32 ≤ (s.queue b).length →
      exec (.writeNow k tag slot value) s = .next (endService k tag 0x13 ⟨.queueFull, []⟩ s)) ∧
    ∀ (front back : List Entry) (old : Entry) (j : Client) (oldTag : Byte),
      s.queue b = front ++ old :: back → front.length + back.length < 32 →
      (∀ x ∈ front, x.waitsFor (slotNo slot) = false) →
      old.kind = .now → old.onBus = false → old.slot = some (slotNo slot) →
      old.origin = .client j oldTag →
      exec (.writeNow k tag slot value) s =
        .next (endService k tag 0x13 ⟨.accepted, []⟩
          (deliverOne (s.setQueue b (front ++ back ++ [e]))
            { client := j, stamp := s.gen.c,
              event := .writeDone oldTag (slotNo slot) .superseded }))

/-! ### Claim Table -/

/-- R22: CLAIM is all or nothing over its range. -/
def Obligations.ClaimTakesTheWholeRange : Prop :=
  ∀ (k : Client) (tag first count : Byte) (s : State), InService k (.claim k tag first count) s →
    ((count.toNat < 1 ∨ 64 < count.toNat ∨ 256 < first.toNat + count.toNat) →
      exec (.claim k tag first count) s = .next (endService k tag 0x20 ⟨.badValue, []⟩ s)) ∧
    (1 ≤ count.toNat → count.toNat ≤ 64 → first.toNat + count.toNat ≤ 256 →
      (∀ i : SlotNo, first.toNat ≤ i.val → i.val < first.toNat + count.toNat →
        (s.slot i).defined = false →
        (∀ j : SlotNo, first.toNat ≤ j.val → j < i → (s.slot j).defined = true) →
        exec (.claim k tag first count) s =
          .next (endService k tag 0x20 ⟨.undefinedSlot, [BitVec.ofNat 8 i.val]⟩ s)) ∧
      ((∀ i : SlotNo, first.toNat ≤ i.val → i.val < first.toNat + count.toNat →
          (s.slot i).defined = true) →
        (∀ (i : SlotNo) (j : Client), first.toNat ≤ i.val → i.val < first.toNat + count.toNat →
          s.owner i = some j → j ≠ k →
          (∀ m : SlotNo, first.toNat ≤ m.val → m < i → FreeFor k s m) →
          exec (.claim k tag first count) s =
            .next (endService k tag 0x20
              ⟨.heldBy, [BitVec.ofNat 8 i.val, BitVec.ofNat 8 j.val]⟩ s)) ∧
        ((∀ i : SlotNo, first.toNat ≤ i.val → i.val < first.toNat + count.toNat →
            FreeFor k s i) →
          ∃ t : State, exec (.claim k tag first count) s =
              .next (endService k tag 0x20
                ⟨.ok, [BitVec.ofNat 8 ((List.finRange 256).countP (fun i =>
                  first.toNat ≤ i.val && i.val < first.toNat + count.toNat &&
                    s.owner i == none))]⟩ t) ∧
            (∀ i : SlotNo, t.owner i =
              if first.toNat ≤ i.val ∧ i.val < first.toNat + count.toNat then some k
              else s.owner i) ∧
            t = { s with claims := { s.claims with owner := t.claims.owner } })))

/-- R23: RELEASE gives up the requester's own claims in the range and no others. -/
def Obligations.ReleaseGivesUpOwnClaims : Prop :=
  ∀ (k : Client) (tag first count : Byte) (s : State), InService k (.release k tag first count) s →
    ((count.toNat < 1 ∨ 64 < count.toNat ∨ 256 < first.toNat + count.toNat) →
      exec (.release k tag first count) s = .next (endService k tag 0x21 ⟨.badValue, []⟩ s)) ∧
    (1 ≤ count.toNat → count.toNat ≤ 64 → first.toNat + count.toNat ≤ 256 →
      ∃ t : State, exec (.release k tag first count) s =
          .next (endService k tag 0x21
            ⟨.ok, [BitVec.ofNat 8 ((List.finRange 256).countP (fun i =>
              first.toNat ≤ i.val && i.val < first.toNat + count.toNat &&
                s.owner i == some k))]⟩ t) ∧
        (∀ i : SlotNo, t.owner i =
          if first.toNat ≤ i.val ∧ i.val < first.toNat + count.toNat ∧ s.owner i = some k
          then none else s.owner i) ∧
        t = { s with claims := { s.claims with owner := t.claims.owner } })

/-- R25: CLAIM_SCHEDULE takes an unheld token, keeps a held one, and is refused HELD_BY otherwise. -/
def Obligations.ClaimScheduleTakesTheToken : Prop :=
  ∀ (k : Client) (tag : Byte) (s : State), InService k (.claimSchedule k tag) s →
    (s.claims.token = none →
      exec (.claimSchedule k tag) s =
        .next (endService k tag 0x22 ⟨.ok, []⟩ (s.setToken (some k)))) ∧
    (s.claims.token = some k →
      exec (.claimSchedule k tag) s = .next (endService k tag 0x22 ⟨.ok, []⟩ s)) ∧
    ∀ j : Client, s.claims.token = some j → j ≠ k →
      exec (.claimSchedule k tag) s =
        .next (endService k tag 0x22 ⟨.heldBy, [BitVec.ofNat 8 j.val]⟩ s)

/-- R26: RELEASE_SCHEDULE gives the token up, or is refused NO_TOKEN. -/
def Obligations.ReleaseScheduleGivesTheTokenUp : Prop :=
  ∀ (k : Client) (tag : Byte) (s : State), InService k (.releaseSchedule k tag) s →
    (s.claims.token = some k →
      exec (.releaseSchedule k tag) s =
        .next (endService k tag 0x23 ⟨.ok, []⟩ (s.setToken none))) ∧
    (s.claims.token ≠ some k →
      exec (.releaseSchedule k tag) s = .next (endService k tag 0x23 ⟨.noToken, []⟩ s))

/-- R27: REVOKE by the token holder frees every slot of the named client, which is told. -/
def Obligations.RevokeFreesTheNamedClient : Prop :=
  ∀ (k : Client) (tag named : Byte) (s : State), InService k (.revoke k tag named) s →
    s.claims.token = some k →
    ((3 < named.toNat ∨ named.toNat = k.val) →
      exec (.revoke k tag named) s = .next (endService k tag 0x24 ⟨.badValue, []⟩ s)) ∧
    ∀ j : Client, named.toNat = j.val → j ≠ k →
      ∃ (t : State) (n : Nat), n = (List.finRange 256).countP (fun i => s.owner i == some j) ∧
        exec (.revoke k tag named) s =
          .next (endService k tag 0x24 ⟨.ok, halfBytes (BitVec.ofNat 16 n)⟩
            (deliverOne t { client := j, stamp := s.gen.c, event := .claimsRevoked k n })) ∧
        (∀ i : SlotNo, t.owner i = if s.owner i = some j then none else s.owner i) ∧
        t = { s with claims := { s.claims with owner := t.claims.owner } }

/-- R28: SET_LEASE with 0 or 8 to 255 sets setting and counter and answers the previous setting; other
settings are refused. -/
def Obligations.SetLeaseSetsSettingAndCounter : Prop :=
  ∀ (k : Client) (tag : Byte) (setting : Half) (s : State), InService k (.setLease k tag setting) s →
    ((setting.toNat = 0 ∨ 8 ≤ setting.toNat ∧ setting.toNat ≤ 255) →
      exec (.setLease k tag setting) s =
        .next (endService k tag 0x25 ⟨.ok, halfBytes (BitVec.ofNat 16 (s.lease k).setting)⟩
          (s.setLease k { setting := setting.toNat, counter := setting.toNat }))) ∧
    ((1 ≤ setting.toNat ∧ setting.toNat ≤ 7 ∨ 255 < setting.toNat) →
      exec (.setLease k tag setting) s = .next (endService k tag 0x25 ⟨.badValue, []⟩ s))

/-! ### Batch Contexts -/

/-- R37, R39: OPEN takes the lowest FREE context and the next id that no live context of the client
holds. -/
def Obligations.OpenTakesAFreshContext : Prop :=
  ∀ (k : Client) (tag target policy : Byte) (epoch : Half) (kind : TargetKind) (pol : Policy)
    (n : Fin 4) (s : State), InService k (.openBatch k tag target policy epoch) s →
    (target = 0x00 ∧ kind = .next ∨ target = 0x01 ∧ kind = .absolute) →
    (policy = 0x00 ∧ pol = .strict ∨ policy = 0x01 ∧ pol = .slip) →
    (∀ m : Fin 4, (s.context k m).state ≠ .opened) →
    (s.context k n).state = .free → (∀ m : Fin 4, m < n → (s.context k m).state ≠ .free) →
    ∃ j : Nat, j < 4 ∧
      (∀ m : Fin 4, (s.context k m).state ≠ .free →
        (s.context k m).id ≠ idAfter^[j + 1] (s.previousId k)) ∧
      (∀ i < j, ∃ m : Fin 4, (s.context k m).state ≠ .free ∧
        (s.context k m).id = idAfter^[i + 1] (s.previousId k)) ∧
      exec (.openBatch k tag target policy epoch) s =
        .next (endService k tag 0x30
          ⟨.ok, [BitVec.ofNat 8 (idAfter^[j + 1] (s.previousId k))]⟩
          ((s.setContext k n
            { state := .opened, id := idAfter^[j + 1] (s.previousId k), kind := kind,
              epoch := epoch, policy := pol, records := [], maxLead := 0, target := 0,
              slipped := false, count := 0, onTime := 0, late := 0, failed := 0,
              superseded := 0, dropped := 0, unresolved := 0 }).setPreviousId k
            (idAfter^[j + 1] (s.previousId k))))

/-- R4, R9, R10, R40, R41: a value is admissible within its slot's limits; every value for an edge slot;
for a form slot, the values built from a mode 0 to 3, a polarity, a divisor code 0 to 4 and a phase below
the divisor, every other bit 0. A STAGE is refused by the first check of R40 that it fails, OUT_OF_RANGE
for a value that is not admissible; one that passes replaces the slot's value in place, or appends a
record while the list holds fewer than 32, or is refused BATCH_FULL. -/
def Obligations.StageKeepsOneRecordPerSlot : Prop :=
  (∀ (i : SlotNo) (v : Value) (s : State),
    (i.val < 232 → (s.admissible i v = true ↔
      (s.slot i).min.toNat ≤ v.toNat ∧ v.toNat ≤ (s.slot i).max.toNat)) ∧
    (∀ o : Fin 12, LocalDescriptor i (s.slot i) →
      (i.val = 232 + 2 * o.val → s.admissible i v = true) ∧
      (i.val = 233 + 2 * o.val → (s.admissible i v = true ↔
        ∃ (mode : Fin 4) (polarity : Fin 2) (code : Fin 5) (phase : Nat), phase < 2 ^ code.val ∧
          v.toNat = mode.val + 2 ^ 4 * polarity.val + 2 ^ 8 * code.val + 2 ^ 12 * phase)))) ∧
  (∀ (k : Client) (tag slot : Byte) (value : Value) (r : Slot) (s : State),
    InService k (.stage k tag slot value) s → r = s.slot (slotNo slot) →
    ((∀ n : Fin 4, (s.context k n).state ≠ .opened) →
      exec (.stage k tag slot value) s = .next (endService k tag 0x31 ⟨.noBatch, []⟩ s)) ∧
    ∀ n : Fin 4, OpenAt k n s →
      (r.defined = false →
        exec (.stage k tag slot value) s =
          .next (endService k tag 0x31 ⟨.undefinedSlot, []⟩ s)) ∧
      (r.defined = true → r.cls ≠ .epoch →
        exec (.stage k tag slot value) s = .next (endService k tag 0x31 ⟨.wrongClass, []⟩ s)) ∧
      (r.defined = true → r.cls = .epoch → s.admissible (slotNo slot) value = false →
        exec (.stage k tag slot value) s = .next (endService k tag 0x31 ⟨.outOfRange, []⟩ s)) ∧
      (r.defined = true → r.cls = .epoch → s.admissible (slotNo slot) value = true →
        ¬ FreeFor k s (slotNo slot) →
        exec (.stage k tag slot value) s = .next (endService k tag 0x31 ⟨.notOwner, []⟩ s))) ∧
  ∀ (k : Client) (tag slot : Byte) (value : Value) (n : Fin 4) (b : Batch) (r : Slot) (s : State),
    InService k (.stage k tag slot value) s → OpenAt k n s → b = s.context k n →
    r = s.slot (slotNo slot) → r.defined = true → r.cls = .epoch →
    s.admissible (slotNo slot) value = true → FreeFor k s (slotNo slot) →
    (∀ (front back : List Staged) (old : Staged), b.records = front ++ old :: back →
      old.slot = slotNo slot → (∀ x ∈ front ++ back, x.slot ≠ slotNo slot) →
      ∃ records : List Staged, records = front ++ { old with value := value } :: back ∧
      exec (.stage k tag slot value) s =
        .next (endService k tag 0x31
          ⟨.ok, [0x01] ++ valueBytes old.value ++ [0x00, BitVec.ofNat 8 records.length]⟩
          (s.setContext k n { b with records := records, maxLead := maxLeadOf records }))) ∧
    ((∀ x ∈ b.records, x.slot ≠ slotNo slot) → b.records.length < 32 →
      ∃ records : List Staged,
      records = b.records ++ [{ slot := slotNo slot, value := value, lead := r.lead }] ∧
      exec (.stage k tag slot value) s =
        .next (endService k tag 0x31
          ⟨.ok, [0x00] ++ valueBytes r.live ++
            [liveStateCode r.liveState, BitVec.ofNat 8 records.length]⟩
          (s.setContext k n { b with records := records, maxLead := maxLeadOf records }))) ∧
    ((∀ x ∈ b.records, x.slot ≠ slotNo slot) → 32 ≤ b.records.length →
      exec (.stage k tag slot value) s = .next (endService k tag 0x31 ⟨.batchFull, []⟩ s))

/-- R42: STAGE_RUN stages its first `m` slots as STAGE would, each replacing the value staged for it in
place or appended in ascending order, and stops at the first slot refused, with that refusal and that
slot; with none refused the stop slot is the last one. A count outside 1 to 8 or a range beyond slot 255
is refused whole, and so is a run with no OPEN batch. -/
def Obligations.StageRunAppendsTheWholeRange : Prop :=
  ∀ (k : Client) (tag first count : Byte) (values : List Value) (s : State),
    InService k (.stageRun k tag first count values) s →
    ((count.toNat < 1 ∨ 8 < count.toNat ∨ 256 < first.toNat + count.toNat) →
      exec (.stageRun k tag first count values) s =
        .next (endService k tag 0x32 ⟨.badValue, []⟩ s)) ∧
    (1 ≤ count.toNat → count.toNat ≤ 8 → first.toNat + count.toNat ≤ 256 →
      ((∀ n : Fin 4, (s.context k n).state ≠ .opened) →
        exec (.stageRun k tag first count values) s =
          .next (endService k tag 0x32 ⟨.noBatch, []⟩ s)) ∧
      ∀ (n : Fin 4) (b : Batch) (m : Nat) (slotAt : Nat → SlotNo) (added records : List Staged)
        (stop : Status) (last : Nat), OpenAt k n s → b = s.context k n →
        values.length = count.toNat → m ≤ count.toNat →
        (∀ j : Nat, slotAt j = slotNo (first + BitVec.ofNat 8 j)) →
        (∀ j < m, (s.slot (slotAt j)).defined = true ∧ (s.slot (slotAt j)).cls = .epoch ∧
          s.admissible (slotAt j) (values.getD j 0) = true ∧ FreeFor k s (slotAt j)) →
        added = ((List.range m).filter (fun j => b.records.all (fun r => r.slot != slotAt j))).map
          (fun j => { slot := slotAt j, value := values.getD j 0,
                      lead := (s.slot (slotAt j)).lead }) →
        b.records.length + added.length ≤ 32 →
        records = b.records.map (fun r =>
          if first.toNat ≤ r.slot.val ∧ r.slot.val < first.toNat + m
          then { r with value := values.getD (r.slot.val - first.toNat) 0 } else r) ++ added →
        (m = count.toNat ∧ stop = .ok ∧ last + 1 = first.toNat + m ∨
          m < count.toNat ∧ last = first.toNat + m ∧
            ((s.slot (slotAt m)).defined = false ∧ stop = .undefinedSlot ∨
              (s.slot (slotAt m)).defined = true ∧
                ((s.slot (slotAt m)).cls ≠ .epoch ∧ stop = .wrongClass ∨
                  (s.slot (slotAt m)).cls = .epoch ∧
                    (s.admissible (slotAt m) (values.getD m 0) = false ∧ stop = .outOfRange ∨
                      s.admissible (slotAt m) (values.getD m 0) = true ∧
                        (¬ FreeFor k s (slotAt m) ∧ stop = .notOwner ∨
                          FreeFor k s (slotAt m) ∧ 32 ≤ b.records.length + added.length ∧
                            (∀ r ∈ b.records, r.slot ≠ slotAt m) ∧ stop = .batchFull))))) →
        exec (.stageRun k tag first count values) s =
          .next (endService k tag 0x32
            ⟨.ok, [BitVec.ofNat 8 m, BitVec.ofNat 8 (m - added.length), stop.code,
              BitVec.ofNat 8 last]⟩
            (s.setContext k n { b with
              records := records,
              maxLead := if m = 0 then b.maxLead else maxLeadOf records })))

/-- R43, R54: UNSTAGE removes one record and keeps the others' order, ABORT frees the OPEN batch, and
CANCEL frees an ARMED batch with its pending records and is refused TOO_LATE for a RELEASING one.
The values that a FREE context holds are the model's choice (log 23). -/
def Obligations.BatchesAreWithdrawnByRequest : Prop :=
  (∀ (k : Client) (tag slot : Byte) (n : Fin 4) (b : Batch) (front back : List Staged)
      (old : Staged) (s : State), InService k (.unstage k tag slot) s → OpenAt k n s →
    b = s.context k n → b.records = front ++ old :: back → old.slot = slotNo slot →
    (∀ x ∈ front ++ back, x.slot ≠ slotNo slot) →
    exec (.unstage k tag slot) s =
      .next (endService k tag 0x33
        ⟨.ok, valueBytes old.value ++ [BitVec.ofNat 8 (front ++ back).length]⟩
        (s.setContext k n { b with
          records := front ++ back, maxLead := maxLeadOf (front ++ back) }))) ∧
  (∀ (k : Client) (tag : Byte) (n : Fin 4) (s : State), InService k (.abort k tag) s →
    OpenAt k n s →
    exec (.abort k tag) s =
      .next (endService k tag 0x35 ⟨.ok, [BitVec.ofNat 8 (s.context k n).id]⟩
        (s.setContext k n Batch.empty))) ∧
  ∀ (k : Client) (tag id : Byte) (n : Fin 4) (r : BatchRef) (s : State),
    InService k (.cancel k tag id) s → r = { client := k, id := id.toNat } →
    (s.context k n).id = id.toNat →
    (∀ m : Fin 4, m < n → (s.context k m).isSealed = false ∨ (s.context k m).id ≠ id.toNat) →
    ((s.context k n).state = .armed →
      exec (.cancel k tag id) s =
        .next (endService k tag 0x36
          ⟨.ok, [id, BitVec.ofNat 8 (s.store.countP (fun x => x.batch == r))]⟩
          (((s.setStore (s.store.filter (fun x => x.batch != r))).setContext k n
            Batch.empty).setSealList (s.batches.sealList.filter (fun x => x != r))))) ∧
    ((s.context k n).state = .releasing →
      exec (.cancel k tag id) s = .next (endService k tag 0x36 ⟨.tooLate, []⟩ s))

/-- R46: the target of a batch, by its target spec, its policy, its max lead and the distance from
C. -/
def Obligations.TargetResolutionFollowsTheTable : Prop :=
  (∀ (e : Epoch) (pol : Policy) (m : Nat) (c : Epoch),
    resolveTarget .next e pol m c = .target (c + 1 + BitVec.ofNat 16 m) false) ∧
  ∀ (e c : Epoch) (m d : Nat), d = (e - c).toNat →
    ((d = 0 ∨ 240 < d) → ∀ pol : Policy, resolveTarget .absolute e pol m c = .outOfHorizon) ∧
    (1 ≤ d → d < 1 + m → d ≤ 240 →
      resolveTarget .absolute e .strict m c = .tooLate ∧
      resolveTarget .absolute e .slip m c = .target (c + 1 + BitVec.ofNat 16 m) true) ∧
    (1 + m ≤ d → d ≤ 240 → ∀ pol : Policy, resolveTarget .absolute e pol m c = .target e false)

/-- R47: a SEAL that passes every check of R45 moves the staged records into the pending store in
staging order, arms the batch and puts it at the tail of the seal list. -/
def Obligations.SealMovesTheBatchIntoTheStore : Prop :=
  ∀ (k : Client) (tag : Byte) (n : Fin 4) (b : Batch) (r : BatchRef) (t : Epoch) (slipped : Bool)
    (s : State), InService k (.sealBatch k tag) s → OpenAt k n s → b = s.context k n →
    r = { client := k, id := b.id } → b.records ≠ [] →
    (∀ x ∈ b.records, (s.slot x.slot).defined = true ∧ FreeFor k s x.slot) →
    (b.kind = .next ∧ t = s.gen.c + 1 + BitVec.ofNat 16 b.maxLead ∧ slipped = false ∨
      b.kind = .absolute ∧ t = b.epoch ∧ slipped = false ∧
        1 + b.maxLead ≤ (b.epoch - s.gen.c).toNat ∧ (b.epoch - s.gen.c).toNat ≤ 240 ∨
      b.kind = .absolute ∧ b.policy = .slip ∧ t = s.gen.c + 1 + BitVec.ofNat 16 b.maxLead ∧
        slipped = true ∧ 1 ≤ (b.epoch - s.gen.c).toNat ∧
        (b.epoch - s.gen.c).toNat < 1 + b.maxLead ∧ (b.epoch - s.gen.c).toNat ≤ 240) →
    (∀ x ∈ b.records, ∀ y ∈ s.store, y.slot = x.slot → y.target ≠ t) →
    s.store.length + b.records.length ≤ 192 →
    exec (.sealBatch k tag) s =
      .next (endService k tag 0x34
        ⟨.ok, [BitVec.ofNat 8 b.id] ++ halfBytes t ++ [if slipped then 0x01 else 0x00]⟩
        (((s.setStore (s.store ++ b.records.mapIdx (fun j x =>
            { slot := x.slot, value := x.value, target := t,
              dispatch := t - BitVec.ofNat 16 (s.slot x.slot).lead, batch := r,
              position := j + 1, state := .waiting }))).setContext k n
          { b with
            state := .armed, records := [], target := t, slipped := slipped,
            count := b.records.length, onTime := 0, late := 0, failed := 0, superseded := 0,
            dropped := 0, unresolved := b.records.length }).setSealList
          (s.batches.sealList ++ [r])))

/-- R45: the refusals of SEAL in their order: NO_BATCH, EMPTY, UNDEFINED_SLOT and NOT_OWNER with the
first such slot in staging order, the target with C, CONFLICT with the first slot in staging order, and
STORE_FULL with the free places. Nothing changes but the port's answer. -/
def Obligations.SealIsRefusedWhole : Prop :=
  (∀ (k : Client) (tag : Byte) (s : State), InService k (.sealBatch k tag) s →
    (∀ n : Fin 4, (s.context k n).state ≠ .opened) →
    exec (.sealBatch k tag) s = .next (endService k tag 0x34 ⟨.noBatch, []⟩ s)) ∧
  ∀ (k : Client) (tag : Byte) (n : Fin 4) (b : Batch) (d : Nat) (s : State),
    InService k (.sealBatch k tag) s → OpenAt k n s → b = s.context k n →
    d = (b.epoch - s.gen.c).toNat →
    (b.records = [] →
      exec (.sealBatch k tag) s = .next (endService k tag 0x34 ⟨.empty, []⟩ s)) ∧
    (∀ (front back : List Staged) (x : Staged), b.records = front ++ x :: back →
      (s.slot x.slot).defined = false → (∀ y ∈ front, (s.slot y.slot).defined = true) →
      exec (.sealBatch k tag) s =
        .next (endService k tag 0x34 ⟨.undefinedSlot, [BitVec.ofNat 8 x.slot.val]⟩ s)) ∧
    (∀ (front back : List Staged) (x : Staged) (j : Client), b.records = front ++ x :: back →
      (∀ y ∈ b.records, (s.slot y.slot).defined = true) → s.owner x.slot = some j → j ≠ k →
      (∀ y ∈ front, FreeFor k s y.slot) →
      exec (.sealBatch k tag) s =
        .next (endService k tag 0x34 ⟨.notOwner, [BitVec.ofNat 8 x.slot.val]⟩ s)) ∧
    (b.records ≠ [] → (∀ x ∈ b.records, (s.slot x.slot).defined = true ∧ FreeFor k s x.slot) →
      (b.kind = .absolute → (d = 0 ∨ 240 < d) →
        exec (.sealBatch k tag) s =
          .next (endService k tag 0x34 ⟨.outOfHorizon, halfBytes s.gen.c⟩ s)) ∧
      (b.kind = .absolute → b.policy = .strict → 1 ≤ d → d < 1 + b.maxLead → d ≤ 240 →
        exec (.sealBatch k tag) s =
          .next (endService k tag 0x34 ⟨.tooLate, halfBytes s.gen.c⟩ s)) ∧
      ∀ (t : Epoch) (slipped : Bool),
        resolveTarget b.kind b.epoch b.policy b.maxLead s.gen.c = .target t slipped →
        (∀ (front back : List Staged) (x : Staged), b.records = front ++ x :: back →
          (∃ y ∈ s.store, y.slot = x.slot ∧ y.target = t) →
          (∀ z ∈ front, ∀ y ∈ s.store, y.slot = z.slot → y.target ≠ t) →
          exec (.sealBatch k tag) s =
            .next (endService k tag 0x34 ⟨.conflict, [BitVec.ofNat 8 x.slot.val]⟩ s)) ∧
        ((∀ x ∈ b.records, ∀ y ∈ s.store, y.slot = x.slot → y.target ≠ t) →
          192 < s.store.length + b.records.length →
          exec (.sealBatch k tag) s =
            .next (endService k tag 0x34
              ⟨.storeFull, [BitVec.ofNat 8 (192 - s.store.length)]⟩ s)))

/-! ### Epoch Generator -/

/-- R89: SET_GEOMETRY takes five items that are valid together, and otherwise none. -/
def Obligations.SetGeometryTakesAllOrNothing : Prop :=
  ∀ (k : Client) (tag : Byte) (lspan vspan wopen wclose : Half) (edge : Byte) (s : State),
    InService k (.setGeometry k tag lspan vspan wopen wclose edge) s →
    s.claims.token = some k → s.gen.run = .stopped →
    ((32 ≤ lspan.toNat ∧ lspan.toNat ≤ 4095 ∧ 64 ≤ vspan.toNat ∧ wopen.toNat ≤ 65531 ∧
        4 ≤ wclose.toNat ∧ wopen.toNat < wclose.toNat ∧ wclose.toNat ≤ vspan.toNat ∧
        wopen.toNat + 4 ≤ wclose.toNat ∧ (edge = 0x00 ∨ edge = 0x01)) →
      exec (.setGeometry k tag lspan vspan wopen wclose edge) s =
        .next (endService k tag 0x40 ⟨.ok, []⟩ (s.setGen { s.gen with
          lspan := lspan.toNat, vspan := vspan.toNat, wopen := wopen.toNat,
          wclose := wclose.toNat, edge := if edge = 0x00 then .rising else .falling }))) ∧
    ((lspan.toNat < 32 ∨ 4095 < lspan.toNat ∨ vspan.toNat < 64 ∨ 65531 < wopen.toNat ∨
        wclose.toNat < 4 ∨ wclose.toNat ≤ wopen.toNat ∨ vspan.toNat < wclose.toNat ∨
        wclose.toNat < wopen.toNat + 4 ∨ (edge ≠ 0x00 ∧ edge ≠ 0x01)) →
      exec (.setGeometry k tag lspan vspan wopen wclose edge) s =
        .next (endService k tag 0x40 ⟨.badGeometry, []⟩ s))

/-- R51, R52, R80, R81, R96, R97, R98: START. The WAITING and DEFERRED records whose dispatch epoch lies
outside S to S + 240 are dropped and counted in their batches, each completed batch being told with the
last C as its stamp. With no slot to prime, FREE begins epoch S at once, and TRIGGERED waits with C = S −
1; the SCHED subscribers and the requester are told PRIMED. With one, the schedule is PRIMING at the last
C, and each bus's slots are placed in ascending order, with their live values, while its queue has a
place; the others stay on the prime list. Slots and claims stay.
The case in which a FREE epoch S begins at once is stated where no record that is kept is due at it, and
its reports where no client counts marks.
The values that a FREE context holds are the model's choice (log 23), the count of draws is its own field
(logs 13 and 20), and so is the one that holds the window moments handed on (log 7). That the report of a
PRIME entry, which the manual does not give it, reads normal is the model's choice (log 27). -/
def Obligations.StartBeginsOrPrimes : Prop :=
  ∀ (k : Client) (tag mode : Byte) (epoch : Half) (gone : List PendingRecord) (told : List Offer)
    (s : State),
    InService k (.start k tag mode epoch) s → s.claims.token = some k → s.gen.run = .stopped →
    (mode = 0x00 ∨ mode = 0x01) →
    gone = s.store.filter (fun x =>
      decide (x.state ≠ .released) && decide (240 < (x.dispatch - epoch).toNat)) →
    RecordsDistinct s →
    (∀ (r : BatchRef) (n : Fin 4), s.sealedContext r = some n →
      gone.countP (fun x => x.batch == r) ≤ (s.context r.client n).unresolved) →
    told = (List.range gone.length).flatMap (fun j =>
      (s.completedAt (gone.map (fun x => some x.batch)) j).toList.map (fun y =>
        batchDoneOf y.1 s.gen.c { y.2 with dropped := y.2.dropped + y.2.unresolved })) →
    ∃ (t : State) (m : Mode), exec (.start k tag mode epoch) s =
        .next (endService k tag 0x41 ⟨.accepted, []⟩ t) ∧
      m = (if mode = 0x00 then .free else .triggered) ∧
      t.claims = s.claims ∧ t.buses = s.buses ∧ t.host = s.host ∧ t.phase = s.phase ∧
      t.pending = s.pending ∧
      ((∀ i : SlotNo, i.val < 232 → (s.slot i).defined = true → (s.slot i).prime = false) →
        (mode = 0x00 → (∀ x ∈ s.store, x.state = .waiting → x.dispatch ≠ epoch) →
          t.queues = s.queues ∧
          t.gen = { s.gen with
            run := .running, mode := m, c := epoch, line := 0, startEpoch := epoch,
            primeList := [], primesOutstanding := 0, issuer := none, window := .shut } ∧
          t.draws = s.draws + 1 ∧
          (∀ o : Fin 12, (t.output o).program = s.liveProgram o ∧
            (t.output o).selected =
              (epoch.toNat % (s.liveProgram o).divisor == (s.liveProgram o).phase)) ∧
          ((∀ j : Client, (s.eventQueue j).mark = false) →
            t.events = (deliver s (told ++ offersTo (fun j => (s.eventQueue j).sched || j == k) t
              (.scheduleState .running .free .primed (some k) epoch))).events)) ∧
        (mode = 0x01 →
          t.queues = s.queues ∧
          t.gen = { s.gen with
            run := .waitTrigger, mode := m, c := epoch - 1, line := 0, startEpoch := epoch,
            primeList := [], primesOutstanding := 0, issuer := none, window := .shut } ∧
          t.draws = s.draws ∧
          (∀ o : Fin 12, (t.output o).program = (s.output o).program ∧
            (t.output o).selected = false ∧ (t.output o).active = false) ∧
          t.events = (deliver s (told ++ offersTo (fun j => (s.eventQueue j).sched || j == k) t
            (.scheduleState .waitTrigger .triggered .primed (some k) (epoch - 1)))).events)) ∧
      ((∃ i : SlotNo, i.val < 232 ∧ (s.slot i).defined = true ∧ (s.slot i).prime = true) →
        ∀ (primes : List SlotNo) (placed : BusNo → List SlotNo),
          primes = (List.finRange 256).filter (fun i =>
            decide (i.val < 232) && (s.slot i).defined && (s.slot i).prime) →
          (∀ b : BusNo, placed b = (primes.filter (fun i => s.slotBus i == some b)).take
            (32 - (s.queue b).length)) →
          t.events = (deliver s told).events ∧ t.draws = s.draws ∧
          t.gen = { s.gen with
            run := .priming, mode := m, line := 0, startEpoch := epoch,
            primeList := primes.filter (fun i => !(placed 0).contains i && !(placed 1).contains i),
            primesOutstanding := primes.length, issuer := some k, window := .shut } ∧
          (∀ o : Fin 12, (t.output o).program = (s.output o).program ∧
            (t.output o).selected = false ∧ (t.output o).active = false) ∧
          ∀ b : BusNo, t.queue b = s.queue b ++ (placed b).map (fun i =>
            { kind := .prime, device := (s.slot i).device.getD 0, register := (s.slot i).register,
              width := (s.slot i).width, order := (s.slot i).order, value := (s.slot i).live,
              slot := some i, deadline := none, late := false, attempts := 0, origin := .priming,
              discarded := false, onBus := false, stamp := none })) ∧
      ((mode = 0x01 ∨ (∀ x ∈ s.store, x.state = .waiting → x.dispatch ≠ epoch) ∨
          ∃ i : SlotNo, i.val < 232 ∧ (s.slot i).defined = true ∧ (s.slot i).prime = true) →
        t.slots = s.slots ∧ t.store = s.store.filter (fun x => !gone.contains x) ∧
        t.batches.previousId = s.batches.previousId ∧
        t.batches.sealList = s.batches.sealList.filter (fun r =>
          !(List.range gone.length).any (fun j =>
            (s.completedAt (gone.map (fun x => some x.batch)) j).any (fun y => y.1 == r))) ∧
        (∀ (r : BatchRef) (n : Fin 4) (b : Batch) (lost : Nat), s.sealedContext r = some n →
          b = s.context r.client n → lost = gone.countP (fun x => x.batch == r) →
          (lost < b.unresolved → t.context r.client n =
            { b with dropped := b.dropped + lost, unresolved := b.unresolved - lost }) ∧
          (0 < lost → lost = b.unresolved → t.context r.client n = Batch.empty)) ∧
        ∀ (j : Client) (n : Fin 4), (∀ x ∈ gone, x.batch.client = j →
          s.sealedContext x.batch ≠ some n) → t.context j n = s.context j n)

/-- R73, R74, R101, R103, R126: STOP. AT_END in RUNNING makes STOPPING, AT_END in STOPPING changes
nothing, and every other one stops at once: late marks for the epoch in progress, outputs inactive, latch
and line cleared. In PRIMING the WAITING PRIME entries leave both queues, and the deferred records of each
bus enter the places they leave, oldest first and marked late. The report goes to the SCHED subscribers
and the requester.
The mark that an ON_BUS PRIME entry gets is read by inference (log 12).
The field that holds the window moments handed on is the model's own (log 7). That the report of a WRITE
entry, which the manual does not give it, reads normal is the model's choice (log 27). -/
def Obligations.StopActsByRunStateAndOption : Prop :=
  ∀ (k : Client) (tag option : Byte) (s : State), InService k (.stop k tag option) s →
    s.claims.token = some k →
    ((s.gen.run = .running ∧ option = 0x00 ∨ s.gen.run = .stopping ∧ option = 0x00) →
      ∀ u : State, u = s.setGen { s.gen with
          run := .stopping, issuer := if s.gen.run = .running then some k else s.gen.issuer } →
      exec (.stop k tag option) s = .next (endService k tag 0x42 ⟨.ok, []⟩
        (deliver u (offersTo (fun j => (s.eventQueue j).sched || j == k) s
          (.scheduleState .stopping s.gen.mode .stopRequest (some k) s.gen.c))))) ∧
    ((s.gen.run.inEpoch = true ∧ option = 0x01 ∨
        s.gen.run = .waitTrigger ∧ (option = 0x00 ∨ option = 0x01)) →
      ∃ u : State, exec (.stop k tag option) s = .next (endService k tag 0x42 ⟨.ok, []⟩
          (deliver u (offersTo (fun j => (s.eventQueue j).sched || j == k) s
            (.scheduleState .stopped s.gen.mode .stopRequest (some k) s.gen.c)))) ∧
        u = { s with
          gen := { s.gen with
            run := .stopped, line := 0, latch := false, primeList := [], primesOutstanding := 0,
            issuer := none, window := .shut },
          outputs := u.outputs,
          queues := if s.gen.run.inEpoch then (markQueuesLate s.gen.c s).queues else s.queues } ∧
        ∀ o : Fin 12, u.output o = { s.output o with
          selected := false, active := false,
          high := match (s.output o).program.polarity with
            | .activeHigh => false
            | .activeLow => true }) ∧
    (s.gen.run = .priming → (option = 0x00 ∨ option = 0x01) →
      ((∀ b : BusNo, s.deferredSet b = []) ∨ RecordsDistinct s) →
      ∀ kept : BusNo → List Entry,
      (∀ b : BusNo, kept b =
        ((s.queue b).filter (fun e => e.kind != .prime || e.onBus)).map (fun e =>
          if e.kind = .prime then { e with discarded := true } else e)) →
      ∃ u : State, exec (.stop k tag option) s = .next (endService k tag 0x42 ⟨.ok, []⟩
          (deliver u (offersTo (fun j => (s.eventQueue j).sched || j == k) s
            (.scheduleState .stopped s.gen.mode .stopRequest (some k) s.gen.c)))) ∧
        u = { s with
          gen := { s.gen with
            run := .stopped, line := 0, latch := false, primeList := [], primesOutstanding := 0,
            issuer := none, window := .shut },
          outputs := u.outputs, store := u.store,
          queues := { s.queues with queue := u.queues.queue } } ∧
        (∀ b : BusNo, u.queue b =
          kept b ++ (enteringBehind s b (kept b)).map (writeEntryFor s true)) ∧
        u.store = withReleased (enteringBehind s 0 (kept 0) ++ enteringBehind s 1 (kept 1))
          s.store ∧
        ∀ o : Fin 12, (u.output o).program = (s.output o).program ∧
          (u.output o).selected = false ∧ (u.output o).active = false) ∧
    (option ≠ 0x00 → option ≠ 0x01 → s.gen.run ≠ .stopped →
      exec (.stop k tag option) s = .next (endService k tag 0x42 ⟨.badValue, []⟩ s)) ∧
    (s.gen.run = .stopped →
      exec (.stop k tag option) s = .next (endService k tag 0x42 ⟨.wrongState, []⟩ s))

/-- R52, R59, R83, R86, R105, R106, R124: RESET_SCHEDULE is taken in every run state. It stops the
schedule, empties the store and the seal list, leaves each queue its ON_BUS entries alone, WRITE entries
without origin and the others with their report discarded, takes the removed probes off the counts, and
keeps C, the mode, the geometry, S and the overrun count, the slots, the claims, the buses and every OPEN
batch. Every batch on the seal list becomes FREE. A client whose queue does not fill is offered, in an
order that is open between the blocks, the BATCH_DONE records of its batches with outcome RESET in
seal-list order, the unresolved records counted as discarded, WRITE_DONE and PROBE_RESULT DROPPED for its
removed entries in the order of each queue, and SCHEDULE_STATE RESET when it subscribes or asked.
The mark that an ON_BUS PRIME entry gets is read by inference (log 12), and the order between the blocks
is an open value (log 13).
The values that a FREE context holds are the model's choice (log 23).
The field that holds the window moments handed on is the model's own (log 7). -/
def Obligations.ResetScheduleEmptiesTheSchedule : Prop :=
  ∀ (k : Client) (tag : Byte) (s : State), InService k (.resetSchedule k tag) s →
    s.claims.token = some k →
    ∃ t : State, exec (.resetSchedule k tag) s = .next (endService k tag 0x43 ⟨.ok, []⟩ t) ∧
      t.gen = { s.gen with
        run := .stopped, line := 0, latch := false, primeList := [], primesOutstanding := 0,
        issuer := none, window := .shut } ∧
      t.store = [] ∧ t.batches.sealList = [] ∧
      (∀ b : BusNo, t.queue b = ((s.queue b).filter (·.onBus)).map (fun e =>
        if e.kind = .write then { e with origin := .detached } else { e with discarded := true })) ∧
      (∀ b : BusNo, (t.queue b).length = (s.queue b).countP (·.onBus) ∧
        ∀ e ∈ t.queue b, e.onBus = true) ∧
      (∀ j : Client, t.probes j = s.probes j -
        ((s.queue 0).countP (fun e => !e.onBus && e.kind == .probe && e.isOf j) +
          (s.queue 1).countP (fun e => !e.onBus && e.kind == .probe && e.isOf j))) ∧
      (∀ (j : Client) (n : Fin 4), (s.context j n).isSealed = false →
        t.context j n = s.context j n) ∧
      (∀ r ∈ s.batches.sealList, ∀ n : Fin 4, s.sealedContext r = some n →
        t.context r.client n = Batch.empty) ∧
      (∀ j : Client, s.batches.sealList.Nodup → (t.eventQueue j).records.length < 16 →
        ∃ (new : List EventRecord) (done report : List Event),
          done = (s.batches.sealList.filter (fun r => r.client == j)).filterMap (fun r =>
            (s.sealedContext r).map (fun n =>
              .batchDone (s.context j n).id .reset (s.context j n).target
                (s.context j n).onTime (s.context j n).late (s.context j n).failed
                ((s.context j n).superseded + ((s.context j n).dropped +
                  (s.context j n).unresolved)))) ∧
          report = (if (s.eventQueue j).sched = true ∨ j = k
            then [.scheduleState .stopped s.gen.mode .reset (some k) s.gen.c] else []) ∧
          (t.eventQueue j).records = (s.eventQueue j).records ++ new ∧
          (∀ x ∈ new, x.stamp = s.gen.c) ∧
          (new.map (·.event)).Perm
            (done ++ droppedReports s 0 j ++ droppedReports s 1 j ++ report) ∧
          done.Sublist (new.map (·.event)) ∧
          (droppedReports s 0 j).Sublist (new.map (·.event)) ∧
          (droppedReports s 1 j).Sublist (new.map (·.event)) ∧
          new.filterMap (fun x => match x.event with
              | .batchDone id outcome target onTime late failed discarded =>
                  some (Event.batchDone id outcome target onTime late failed discarded)
              | _ => none) = done) ∧
      t.slots = s.slots ∧ t.claims = s.claims ∧ t.buses = s.buses ∧ t.host = s.host ∧
      t.phase = s.phase ∧ t.pending = s.pending ∧
      t.batches.previousId = s.batches.previousId ∧
      ∀ o : Fin 12, (t.output o).program = (s.output o).program ∧
        (t.output o).selected = false ∧ (t.output o).active = false

/-- R108, R123, R141, R152: READ_SCHEDULE, READ_OUTPUTS, READ_BUS and READ_QUEUE report what stands and
change no field of the manual; a bus above 1 is refused BAD_VALUE. The state and late flag that are
reported for the head of an EMPTY queue are open values: the statement says that each is one of its two
codes, and not which (log 14). The count of draws that rises with them is the model's own field
(log 20). -/
def Obligations.ScheduleAndBusReadsChangeNothing : Prop :=
  (∀ (k : Client) (tag : Byte) (s : State), InService k (.readSchedule k tag) s →
    exec (.readSchedule k tag) s = .next (endService k tag 0x44
      ⟨.ok, schedulePayload s.gen s.claims.token s.store.length⟩ s)) ∧
  (∀ (k : Client) (tag : Byte) (s : State), InService k (.readOutputs k tag) s →
    ∃ pins selected : Half, exec (.readOutputs k tag) s = .next (endService k tag 0x48
        ⟨.ok, halfBytes pins ++ halfBytes selected⟩ s) ∧
      (∀ o : Fin 12, pins.getLsbD o.val = (s.output o).high ∧
        selected.getLsbD o.val = (s.output o).selected) ∧
      ∀ j : Nat, 12 ≤ j → pins.getLsbD j = false ∧ selected.getLsbD j = false) ∧
  (∀ (k : Client) (tag bus : Byte) (b : BusNo) (s : State), InService k (.readBus k tag bus) s →
    bus.toNat = b.val →
    exec (.readBus k tag bus) s = .next (endService k tag 0x63
      ⟨.ok, [engineCode (s.engine b).state, speedCode (s.engine b).speed,
          BitVec.ofNat 8 (((List.finRange 8).filter (fun d =>
            (s.device d).isPresent && (s.device d).bus == b)).length)] ++
        ((List.finRange 8).filter (fun d =>
          (s.device d).isPresent && (s.device d).bus == b)).flatMap (fun d =>
            deviceEntry d (s.device d) (s.inUse d))⟩ s)) ∧
  (∀ (k : Client) (tag bus : Byte) (s : State), 1 < bus.toNat →
    (InService k (.readBus k tag bus) s →
      exec (.readBus k tag bus) s = .next (endService k tag 0x63 ⟨.badValue, []⟩ s)) ∧
    (InService k (.readQueue k tag bus) s →
      exec (.readQueue k tag bus) s = .next (endService k tag 0x51 ⟨.badValue, []⟩ s))) ∧
  (∀ (k : Client) (tag bus : Byte) (b : BusNo) (e : Entry) (rest : List Entry) (s : State),
    InService k (.readQueue k tag bus) s → bus.toNat = b.val → s.queue b = e :: rest →
    exec (.readQueue k tag bus) s = .next (endService k tag 0x51
      ⟨.ok, [BitVec.ofNat 8 (s.queue b).length, kindCode e.kind,
        (match e.slot with | some i => BitVec.ofNat 8 i.val | none => 0x00),
        (if e.onBus then 0x01 else 0x00), (if e.late then 0x01 else 0x00),
        BitVec.ofNat 8 (s.deferredSet b).length, engineCode (s.engine b).state]⟩ s)) ∧
  ∀ (k : Client) (tag bus : Byte) (b : BusNo) (s : State),
    InService k (.readQueue k tag bus) s → bus.toNat = b.val → s.queue b = [] →
    ∃ state late : Bool, exec (.readQueue k tag bus) s = .next (endService k tag 0x51
      ⟨.ok, [0x00, 0x00, 0x00, (if state then 0x01 else 0x00), (if late then 0x01 else 0x00),
        BitVec.ofNat 8 (s.deferredSet b).length, engineCode (s.engine b).state]⟩
      { s with draws := s.draws + 1 })

/-- R90, R145, R146: in an epoch whose window has no moment due, LINE_ADVANCE moves the line on and
computes every output's level for the new line, and nothing else; outside an epoch, and in the last
line, it changes nothing. -/
def Obligations.LineAdvanceComputesTheLevels : Prop :=
  ∀ s : State, s.phase = .operating →
    (s.gen.run.inEpoch = true → s.gen.line + 1 < s.gen.vspan → s.gen.openDue = false →
      s.gen.closeDue = false →
      ∃ t : State, exec .lineAdvance s = .next t ∧
        t = { s with gen := { s.gen with line := s.gen.line + 1 }, outputs := t.outputs } ∧
        ∀ o : Fin 12, ∃ active : Bool,
          (active = true ↔ (s.output o).selected = true ∧
            ((s.output o).program.mode = .level ∨
              (s.output o).program.mode = .pulse ∧
                (s.output o).program.rise ≤ s.gen.line + 1 ∧
                s.gen.line + 1 < (s.output o).program.fall)) ∧
          t.output o = { s.output o with
            active := active,
            high := match (s.output o).program.polarity with
              | .activeHigh => active
              | .activeLow => !active }) ∧
    ((s.gen.run.inEpoch = false ∨ s.gen.vspan ≤ s.gen.line + 1) → exec .lineAdvance s = .next s)

/-- R91, R117: the window opens at line W_open and closes at line W_close (at the end of the last line
when W_close is VSPAN); the close marks late the WAITING WRITE entries with this epoch's deadline.
The field that holds the moments handed on is the model's own (log 7). -/
def Obligations.WindowMomentsReachEnginesAndQueues : Prop :=
  ∀ s : State, s.phase = .operating → s.gen.run.inEpoch = true →
    (s.gen.line = s.gen.wopen → s.gen.window = .shut →
      exec .windowOpen s = .next { s with gen := { s.gen with window := .opened } }) ∧
    (s.gen.window = .opened →
      (s.gen.line = s.gen.wclose ∨ s.gen.wclose = s.gen.vspan ∧ s.gen.line + 1 = s.gen.vspan) →
      ∃ t : State, exec .windowClose s = .next t ∧
        t = { s with
          gen := { s.gen with window := .closed },
          queues := { s.queues with queue := t.queues.queue } } ∧
        ∀ b : BusNo, t.queue b = (s.queue b).map (fun e =>
          if e.onBus = false ∧ e.kind = .write ∧ e.deadline = some s.gen.c
          then { e with late := true } else e))

/-- R93, R102, R107, R149: the end of the last line, with no window moment due. RUNNING in FREE mode, or
with the latch set, begins C + 1, where the mark counter of each MARK subscriber advances by one and, when
it reaches the divider, restarts with an EPOCH_MARK to that client; RUNNING in TRIGGERED mode with the
latch clear waits; STOPPING stops with STOP_COMPLETE to its issuer and the SCHED subscribers.
The count of draws is the model's own field (logs 13 and 20).
The field that holds the window moments handed on is the model's own (log 7). -/
def Obligations.EpochEndActsByRunState : Prop :=
  ∀ s : State, s.phase = .operating → s.gen.line + 1 = s.gen.vspan → s.gen.openDue = false →
    s.gen.closeDue = false →
    (s.gen.run = .running → (s.gen.mode = .free ∨ s.gen.latch = true) →
      (∀ x ∈ s.store, x.state = .waiting → x.dispatch ≠ s.gen.c + 1) →
      ∃ t : State, exec .epochEnd s = .next t ∧
        t = { s with
          gen := { s.gen with
            c := s.gen.c + 1, line := 0, window := .shut,
            latch := if s.gen.mode = .free then s.gen.latch else false },
          outputs := t.outputs, events := t.events, draws := s.draws + 1 } ∧
        (∀ o : Fin 12, (t.output o).program = s.liveProgram o ∧
          (t.output o).selected =
            ((s.gen.c + 1).toNat % (s.liveProgram o).divisor == (s.liveProgram o).phase)) ∧
        (∀ k : Client, (s.eventQueue k).mark = false → t.eventQueue k = s.eventQueue k) ∧
        ∀ k : Client, (s.eventQueue k).mark = true →
          ((s.eventQueue k).counter + 1 ≠ (s.eventQueue k).divider →
            t.eventQueue k = { s.eventQueue k with counter := (s.eventQueue k).counter + 1 }) ∧
          ((s.eventQueue k).counter + 1 = (s.eventQueue k).divider →
            t.eventQueue k =
              { (deliverOne s { client := k, stamp := s.gen.c + 1,
                                event := .epochMark (s.gen.c + 1) }).eventQueue k with
                counter := 0 })) ∧
    (s.gen.run = .running → s.gen.mode = .triggered → s.gen.latch = false →
      ∃ t : State, exec .epochEnd s = .next t ∧
        t = { s with
          gen := { s.gen with run := .waitTrigger, line := 0, window := .shut },
          outputs := t.outputs } ∧
        ∀ o : Fin 12, (t.output o).program = (s.output o).program ∧
          (t.output o).selected = false ∧ (t.output o).active = false) ∧
    (s.gen.run = .stopping →
      ∃ u : State, exec .epochEnd s = .next (deliver u
          (offersTo (fun j => (s.eventQueue j).sched || s.gen.issuer == some j) s
            (.scheduleState .stopped s.gen.mode .stopComplete s.gen.issuer s.gen.c))) ∧
        u = { s with
          gen := { s.gen with
            run := .stopped, line := 0, latch := false, primeList := [], primesOutstanding := 0,
            issuer := none, window := .shut },
          outputs := u.outputs, queues := (markQueuesLate s.gen.c s).queues })

/-- R8, R50, R51, R52, R69, R70, R71, R72, R78, R111, R112: the boundary releases the records due at it.
A local slot takes the value with applied epoch C + 1, and the record is resolved ON_TIME; when it was its
batch's last, the batch offers BATCH_DONE, leaves the seal list and becomes FREE. Another record's WRITE
entry joins the tail of its bus's queue, its deadline C + 1; on a full queue the record becomes DEFERRED.
An older DEFERRED record for the slot, or the record of a WAITING WRITE entry for it, is superseded and
counted in its own batch, and that entry gives up its place; a WAITING NOW entry for the slot is
superseded and its client told. Of several due records, each bus takes its own in release order, the
order in which the store lists them (R47), while it has places, and defers the others.
The values that a FREE context holds are the model's choice (log 23), and so is the report of a WRITE
entry, which the manual does not give it (log 27). -/
def Obligations.BoundaryReleasesTheDueRecord : Prop :=
  (∀ (x : PendingRecord) (front back : List PendingRecord) (n : Fin 4) (c : Batch) (r : Slot)
    (e : Epoch) (s : State), s.phase = .operating → s.gen.run = .running → s.gen.mode = .free →
    s.gen.line + 1 = s.gen.vspan → s.gen.openDue = false → s.gen.closeDue = false →
    e = s.gen.c + 1 → s.store = front ++ x :: back → x.state = .waiting → x.dispatch = e →
    (∀ y ∈ front ++ back, (y.state = .waiting → y.dispatch ≠ e) ∧
      (y.batch ≠ x.batch ∨ y.position ≠ x.position) ∧ (y.state = .deferred → y.slot ≠ x.slot)) →
    s.sealedContext x.batch = some n → c = s.context x.batch.client n → r = s.slot x.slot →
    ∃ t : State, exec .epochEnd s = .next t ∧ t.gen.c = e ∧ t.claims = s.claims ∧
      t.buses = s.buses ∧ t.host = s.host ∧ t.phase = s.phase ∧ t.pending = s.pending ∧
      (r.device = none → 2 ≤ c.unresolved →
        t.store = front ++ back ∧ t.queues = s.queues ∧
        t.slots = (s.setSlot x.slot
          { r with live := x.value, liveState := .valid, applied := some e }).slots ∧
        t.batches = (s.setContext x.batch.client n { c with
          state := .releasing, onTime := c.onTime + 1, unresolved := c.unresolved - 1 }).batches) ∧
      (r.device = none → c.unresolved = 1 →
        t.store = front ++ back ∧ t.queues = s.queues ∧
        t.slots = (s.setSlot x.slot
          { r with live := x.value, liveState := .valid, applied := some e }).slots ∧
        t.batches = ((s.setContext x.batch.client n Batch.empty).setSealList
          (s.batches.sealList.filter (fun y => y != x.batch))).batches ∧
        ((∀ k : Client, (s.eventQueue k).mark = false) →
          t.events = (deliverOne s
            { client := x.batch.client, stamp := e,
              event := .batchDone c.id (if c.onTime + 1 = c.count then .applied else .degraded)
                c.target (c.onTime + 1) c.late c.failed (c.superseded + c.dropped) }).events)) ∧
      ∀ (d : DeviceNo) (b : BusNo), r.device = some d → b = (s.device d).bus →
        (∀ y ∈ s.queue b, y.waitsFor x.slot = false) →
        t.slots = s.slots ∧
        t.batches = (s.setContext x.batch.client n { c with state := .releasing }).batches ∧
        ((s.queue b).length < 32 →
          t.store = front ++ { x with state := .released } :: back ∧
          t.queues = (s.setQueue b (s.queue b ++
            [{ kind := .write, device := d, register := r.register, width := r.width,
               order := r.order, value := x.value, slot := some x.slot, deadline := some e,
               late := false, attempts := 0, origin := .record x.batch x.position,
               discarded := false, onBus := false, stamp := none }])).queues) ∧
        (32 ≤ (s.queue b).length →
          t.store = front ++ { x with state := .deferred } :: back ∧ t.queues = s.queues)) ∧
  (∀ (x : PendingRecord) (n : Fin 4) (c : Batch) (d : DeviceNo) (b : BusNo) (rest : List Entry)
    (after : State) (e : Epoch) (s : State), s.phase = .operating → s.gen.run = .running →
    s.gen.mode = .free → s.gen.line + 1 = s.gen.vspan → s.gen.openDue = false →
    s.gen.closeDue = false → e = s.gen.c + 1 → RecordsDistinct s → s.dueRecords e = [x] →
    s.sealedContext x.batch = some n → c = s.context x.batch.client n →
    (s.slot x.slot).device = some d → b = (s.device d).bus →
    after = ((s.setContext x.batch.client n { c with state := .releasing }).setQueue b
      (if rest.length < 32 then rest ++ [writeEntryFor s false x] else rest)).setStore
      (s.store.map (fun y => if y = x
        then { x with state := if rest.length < 32 then .released else .deferred } else y)) →
    (∀ (old : BatchRef) (position : Nat) (m : Fin 4) (o : Batch), old ≠ x.batch →
      s.sealedContext old = some m → o = s.context old.client m →
      ((∃ z ∈ s.store, z.state = .deferred ∧ z.slot = x.slot ∧ z.batch = old ∧
          z.position = position ∧ (∀ y ∈ s.store, y.state = .deferred → y.slot = x.slot → y = z) ∧
          rest = s.queue b ∧ ∀ y ∈ s.queue b, y.waitsFor x.slot = false) ∨
        (∀ y ∈ s.store, y.state = .deferred → y.slot ≠ x.slot) ∧
          ∃ (front back : List Entry) (y : Entry), s.queue b = front ++ y :: back ∧
            rest = front ++ back ∧ rest.length < 32 ∧ y.kind = .write ∧ y.onBus = false ∧
            y.slot = some x.slot ∧ y.origin = .record old position ∧
            ∀ f ∈ front, f.waitsFor x.slot = false) →
      ∃ t : State, exec .epochEnd s = .next t ∧ t.gen.c = e ∧ t.slots = s.slots ∧
        t.claims = s.claims ∧ t.buses = s.buses ∧ t.host = s.host ∧ t.queues = after.queues ∧
        t.store = after.store.filter (fun y => !(y.batch == old && y.position == position)) ∧
        (2 ≤ o.unresolved → t.batches = (after.setContext old.client m
            { o with superseded := o.superseded + 1, unresolved := o.unresolved - 1 }).batches ∧
          ((∀ k : Client, (s.eventQueue k).mark = false) → t.events = s.events)) ∧
        (o.unresolved = 1 → t.batches = ((after.setContext old.client m Batch.empty).setSealList
            (s.batches.sealList.filter (fun r => r != old))).batches ∧
          ((∀ k : Client, (s.eventQueue k).mark = false) →
            t.events = (deliverOne s
              (batchDoneOf old e { o with superseded := o.superseded + 1 })).events))) ∧
    ∀ (front back : List Entry) (y : Entry) (j : Client) (tag : Byte),
      (∀ z ∈ s.store, z.state = .deferred → z.slot ≠ x.slot) →
      s.queue b = front ++ y :: back → rest = front ++ back → rest.length < 32 →
      y.kind = .now → y.onBus = false → y.slot = some x.slot → y.origin = .client j tag →
      (∀ f ∈ front, f.waitsFor x.slot = false) →
      ∃ t : State, exec .epochEnd s = .next t ∧ t.gen.c = e ∧ t.slots = s.slots ∧
        t.claims = s.claims ∧ t.buses = s.buses ∧ t.host = s.host ∧ t.queues = after.queues ∧
        t.store = after.store ∧ t.batches = after.batches ∧
        ((∀ k : Client, (s.eventQueue k).mark = false) → t.events = (deliverOne s
          { client := j, stamp := e, event := .writeDone tag x.slot .superseded }).events)) ∧
  ∀ (e : Epoch) (due : List PendingRecord) (own taken : BusNo → List PendingRecord) (s : State),
    s.phase = .operating → s.gen.run = .running → s.gen.mode = .free →
    s.gen.line + 1 = s.gen.vspan → s.gen.openDue = false → s.gen.closeDue = false →
    e = s.gen.c + 1 → RecordsDistinct s →
    due = s.store.filter (fun x => decide (x.state = .waiting) && decide (x.dispatch = e)) →
    (due.map (·.slot)).Nodup →
    (∀ x ∈ due, (s.slot x.slot).device ≠ none ∧
      (∀ y ∈ s.store, y.state = .deferred → y.slot ≠ x.slot) ∧
      ∀ (b : BusNo), ∀ y ∈ s.queue b, y.waitsFor x.slot = false) →
    (∀ b : BusNo, own b = due.filter (fun x => s.slotBus x.slot == some b) ∧
      taken b = (own b).take (32 - (s.queue b).length)) →
    ∃ t : State, exec .epochEnd s = .next t ∧ t.gen.c = e ∧ t.slots = s.slots ∧
      t.claims = s.claims ∧ t.buses = s.buses ∧ t.host = s.host ∧
      (∀ b : BusNo, t.queue b = s.queue b ++ (taken b).map (writeEntryFor s false)) ∧
      t.queues.probes = s.queues.probes ∧
      t.store = s.store.map (fun x => if x ∈ taken 0 ∨ x ∈ taken 1
        then { x with state := .released }
        else if x ∈ due then { x with state := .deferred } else x) ∧
      t.batches = { s.batches with context := t.batches.context } ∧
      (∀ x ∈ due, ∀ n : Fin 4, s.sealedContext x.batch = some n →
        t.context x.batch.client n = { s.context x.batch.client n with state := .releasing }) ∧
      (∀ (j : Client) (n : Fin 4),
        (∀ x ∈ due, x.batch.client = j → s.sealedContext x.batch ≠ some n) →
        t.context j n = s.context j n) ∧
      ∀ k : Client, (s.eventQueue k).mark = false → t.eventQueue k = s.eventQueue k

/-- R94: a trigger begins C + 1 in WAIT_TRIGGER, sets a clear latch in a RUNNING TRIGGERED epoch, is an
overrun told to the SCHED subscribers when the latch is set, and is ignored elsewhere; an edge of the
other kind, or after a level held for less than 3 REFCLK cycles, is no trigger.
The count of draws that rises at a boundary is the model's own field (logs 13 and 20).
The field that holds the window moments handed on is the model's own (log 7). -/
def Obligations.TriggerActsByRunState : Prop :=
  ∀ (edge : Edge) (heldFor : Nat) (s : State), s.phase = .operating →
    (edge = s.gen.edge → 3 ≤ heldFor →
      (s.gen.run = .running → s.gen.mode = .triggered → s.gen.latch = false →
        exec (.trigger edge heldFor) s = .next (s.setGen { s.gen with latch := true })) ∧
      (s.gen.run = .running → s.gen.mode = .triggered → s.gen.latch = true →
        ∃ n : Nat, n = min (s.gen.overruns + 1) 65535 ∧ (s.gen.overruns ≤ 65535 →
          exec (.trigger edge heldFor) s = .next (deliver
            (s.setGen { s.gen with overruns := n })
            (offersTo (fun j => (s.eventQueue j).sched) s (.triggerOverrun s.gen.c n))))) ∧
      (s.gen.run = .waitTrigger →
        (∀ x ∈ s.store, x.state = .waiting → x.dispatch ≠ s.gen.c + 1) →
        ∃ t : State, exec (.trigger edge heldFor) s = .next t ∧
          t = { s with
            gen := { s.gen with
              run := .running, c := s.gen.c + 1, line := 0, window := .shut },
            outputs := t.outputs, events := t.events, draws := s.draws + 1 } ∧
          ∀ o : Fin 12, (t.output o).program = s.liveProgram o) ∧
      ((s.gen.run = .stopped ∨ s.gen.run = .priming ∨ s.gen.run = .stopping ∨
          s.gen.run = .running ∧ s.gen.mode = .free) →
        exec (.trigger edge heldFor) s = .next s)) ∧
    ((edge ≠ s.gen.edge ∨ heldFor < 3) → exec (.trigger edge heldFor) s = .next s)

/-! ### Dispatch Queues, device table and buses -/

/-- R121: an accepted READ_DEVICE appends a PROBE entry to its device's bus and counts it; the five
checks refuse in their order.
The value of a PROBE entry, which the manual does not give it, is the model's choice: 0 (log 27). -/
def Obligations.ReadDeviceAppendsAProbe : Prop :=
  (∀ (k : Client) (tag device : Byte) (register : Half) (width order : Byte) (s : State),
    InService k (.readDevice k tag device register width order) s →
    (7 < device.toNat ∨ width.toNat < 1 ∨ 4 < width.toNat ∨ 1 < order.toNat) →
    exec (.readDevice k tag device register width order) s =
      .next (endService k tag 0x50 ⟨.badValue, []⟩ s)) ∧
  ∀ (k : Client) (tag device : Byte) (register : Half) (width order : Byte) (d : DeviceNo)
    (o : ByteOrder) (r : Device) (s : State),
    InService k (.readDevice k tag device register width order) s →
    device.toNat = d.val → 1 ≤ width.toNat → width.toNat ≤ 4 →
    (order = 0x00 ∧ o = .msbFirst ∨ order = 0x01 ∧ o = .lsbFirst) → r = s.device d →
    (r.isPresent = false →
      exec (.readDevice k tag device register width order) s =
        .next (endService k tag 0x50 ⟨.noDevice, []⟩ s)) ∧
    (r.isPresent = true → r.size = 1 → 255 < register.toNat →
      exec (.readDevice k tag device register width order) s =
        .next (endService k tag 0x50 ⟨.badValue, []⟩ s)) ∧
    (r.isPresent = true → (r.size = 1 → register.toNat ≤ 255) →
      (s.probes k = 2 →
        exec (.readDevice k tag device register width order) s =
          .next (endService k tag 0x50 ⟨.probeLimit, []⟩ s)) ∧
      (s.probes k < 2 → 32 ≤ (s.queue r.bus).length →
        exec (.readDevice k tag device register width order) s =
          .next (endService k tag 0x50 ⟨.queueFull, []⟩ s)) ∧
      (s.probes k < 2 → (s.queue r.bus).length < 32 →
        exec (.readDevice k tag device register width order) s =
          .next (endService k tag 0x50 ⟨.accepted, []⟩
            ((s.setQueue r.bus (s.queue r.bus ++
              [{ kind := .probe, device := d, register := register, width := width.toNat,
                 order := o, value := 0, slot := none, deadline := none, late := false,
                 attempts := 0, origin := .client k tag, discarded := false, onBus := false,
                 stamp := none }])).setProbes k (s.probes k + 1)))))

/-- R128, R129: DEFINE_DEVICE in STOPPED writes the record given, or the pin-reset values for ABSENT; a
device in use keeps its identity, and no two PRESENT devices get one bus and address. -/
def Obligations.DefineDeviceWritesTheRecord : Prop :=
  ∀ (k : Client) (tag device state bus address size retries : Byte) (d : DeviceNo) (new : Device)
    (s : State),
    InService k (.defineDevice k tag device state bus address size retries) s →
    s.claims.token = some k → s.gen.run = .stopped → device.toNat = d.val →
    (state = 0x00 ∧ new = { isPresent := false, bus := 0, address := 0, size := 1, retries := 0 } ∨
      state = 0x01 ∧ bus.toNat < 2 ∧ address.toNat < 128 ∧ (size.toNat = 1 ∨ size.toNat = 2) ∧
        retries.toNat ≤ 3 ∧ new.isPresent = true ∧ new.bus.val = bus.toNat ∧
        new.address.toNat = address.toNat ∧ new.size = size.toNat ∧
        new.retries = retries.toNat) →
    (s.inUse d = true → ((s.device d).isPresent = true ∧ state = 0x00 ∨
        (s.device d).bus ≠ new.bus ∨ (s.device d).address ≠ new.address ∨
        (s.device d).size ≠ new.size) →
      exec (.defineDevice k tag device state bus address size retries) s =
        .next (endService k tag 0x60 ⟨.deviceBusy, []⟩ s)) ∧
    ((s.inUse d = false ∨ ((s.device d).isPresent = true → state = 0x01) ∧
        (s.device d).bus = new.bus ∧ (s.device d).address = new.address ∧
        (s.device d).size = new.size) →
      (state = 0x01 → (∃ e : DeviceNo, e ≠ d ∧ (s.device e).isPresent = true ∧
          (s.device e).bus = new.bus ∧ (s.device e).address = new.address) →
        exec (.defineDevice k tag device state bus address size retries) s =
          .next (endService k tag 0x60 ⟨.duplicateAddress, []⟩ s)) ∧
      ((state = 0x00 ∨ ∀ e : DeviceNo, e ≠ d → (s.device e).isPresent = true →
          (s.device e).bus = new.bus → (s.device e).address ≠ new.address) →
        exec (.defineDevice k tag device state bus address size retries) s =
          .next (endService k tag 0x60 ⟨.ok, []⟩ (s.setDevice d new))))

/-- R130, R139: BUS_CONFIG sets the speed and leaves the transfer in progress its clock; BUS_RECOVER on
a bus in FAULT begins a recovery with no transfer, for the requester, and is refused elsewhere.
The fields that record a stretch in progress, the clock, the pulses and the wires are the model's own
(logs 6 and 19). -/
def Obligations.BusConfigAndRecoverActOnOneEngine : Prop :=
  (∀ (k : Client) (tag bus speed : Byte) (b : BusNo) (v : Speed) (s : State),
    InService k (.busConfig k tag bus speed) s → s.claims.token = some k → s.gen.run = .stopped →
    bus.toNat = b.val →
    (speed = 0x00 ∧ v = .khz100 ∨ speed = 0x01 ∧ v = .khz400 ∨ speed = 0x02 ∧ v = .mhz1) →
    exec (.busConfig k tag bus speed) s =
      .next (endService k tag 0x61 ⟨.ok, []⟩
        (s.setEngine b { s.engine b with speed := v }))) ∧
  ∀ (k : Client) (tag bus : Byte) (b : BusNo) (s : State), InService k (.busRecover k tag bus) s →
    s.claims.token = some k → bus.toNat = b.val →
    ((s.engine b).state = .fault →
      exec (.busRecover k tag bus) s =
        .next (endService k tag 0x62 ⟨.ok, []⟩ (s.setEngine b { s.engine b with
          state := .recovery, requester := some k, clock := (s.engine b).speed, xfer := none,
          stretching := false, stretchCount := 0, pulses := 0, sent := [] }))) ∧
    ((s.engine b).state ≠ .fault →
      exec (.busRecover k tag bus) s = .next (endService k tag 0x62 ⟨.wrongState, []⟩ s))

/-- R115: what a transfer carries behind its head is the longest run that continues the head's register
block on one device in one byte order, without a probe, within 8 entries and 16 data bytes. -/
def Obligations.CoalescedRunIsTheLongest : Prop :=
  ∀ (head : Entry) (rest : List Entry) (n : Nat), n = (runBehind head rest).length →
    runBehind head rest = rest.take n ∧
    (0 < n → head.kind ≠ .probe) ∧
    (∀ (j : Nat) (x y : Entry), j < n → (head :: rest)[j]? = some x → rest[j]? = some y →
      y.kind ≠ .probe ∧ y.device = head.device ∧ y.order = head.order ∧
      y.register.toNat = x.register.toNat + x.width) ∧
    n + 1 ≤ 8 ∧
    (head.width ≤ 16 → ((head :: runBehind head rest).map (·.width)).sum ≤ 16) ∧
    ∀ x y : Entry, (head :: rest)[n]? = some x → rest[n]? = some y →
      head.kind = .probe ∨ y.kind = .probe ∨ y.device ≠ head.device ∨ y.order ≠ head.order ∨
      y.register.toNat ≠ x.register.toNat + x.width ∨ 8 < n + 2 ∨
      16 < ((head :: runBehind head rest).map (·.width)).sum + y.width

/-- R114, R132, R137: an IDLE engine that may start, none of its queue's entries being ON_BUS (R131: an
IDLE engine has no transfer), takes the head and its run; they become ON_BUS with one start stamp, and
the device record is read once. With DSDA low the attempt fails into RECOVERY. In the quiet lines and in
WAIT_TRIGGER nothing starts.
That attempts made counts failed attempts is read by inference (log 10); the fields that record
a stretch in progress, the clock and the wires are the model's own (logs 6 and 19). -/
def Obligations.TransferStartTakesTheHead : Prop :=
  ∀ (b : BusNo) (dataLow : Bool) (s : State), s.phase = .operating →
    (∀ (head : Entry) (rest : List Entry) (n : Nat) (stamp : Option Epoch) (t : Transfer),
      s.queue b = head :: rest → n = (runBehind head rest).length →
      (s.engine b).state = .idle → (∀ e ∈ s.queue b, e.onBus = false) →
      (s.gen.run = .stopped ∨ s.gen.run = .priming ∨
        s.gen.run.inEpoch = true ∧ s.gen.window = .opened) →
      stamp = (if s.gen.run.inEpoch then some s.gen.c else none) →
      t = { device := head.device, register := head.register,
            limit := 1 + (s.device head.device).retries, made := if dataLow then 1 else 0,
            wire := attemptWire (s.device head.device) head (runBehind head rest) } →
      exec (.transferStart b dataLow) s = .next
        ((s.setQueue b
          (((head :: rest).take (n + 1)).map (fun e =>
            { e with onBus := true, stamp := stamp, attempts := t.made }) ++
            rest.drop n)).setEngine b
          (if dataLow then
            { s.engine b with
              state := .recovery, clock := (s.engine b).speed, xfer := some t,
              stretching := false, stretchCount := 0, pulses := 0, sent := [] }
          else
            { s.engine b with
              state := .transfer, clock := (s.engine b).speed, xfer := some t,
              stretching := false, stretchCount := 0, sent := [] }))) ∧
    ((s.queue b = [] ∨ (s.engine b).state ≠ .idle ∨ s.gen.run = .waitTrigger ∨
        s.gen.run.inEpoch = true ∧ s.gen.window ≠ .opened) →
      exec (.transferStart b dataLow) s = .next s)

/-- R7, R17, R51, R52, R73, R74, R98, R99, R119, R120, R122, R131: the end of a transfer. A NOW entry's
slot takes the value, VALID, with the start stamp as applied epoch, or at the last failed attempt
UNCERTAIN with none; its client is told. A PROBE lowers its client's count and returns the value read, or
FAILED. A WRITE is counted in its batch, which completes when it was the last. A PRIME entry's slot takes
the value with no applied epoch, and is counted; the last one ends priming, and at the last failed attempt
it makes priming fail. The clauses before the last are of an uncoalesced transfer with nothing deferred on
the bus and no slot to place. The last is of every transfer, coalesced or not, that neither ends priming
nor makes it fail: each entry's result is handed on in queue order, an entry whose report is discarded
tells nobody and one without origin counts in no batch, and the deferred records of the bus enter the
places that are free.
That the last failed attempt is the one that brings the failed attempts to the limit is read from R135 and
section 7.2 by inference (log 10), and so are TRANSFER_END as an attempt acknowledged in full (log 18),
the moment at which epoch S begins (log 11) and the mark of an ON_BUS PRIME entry whose priming failed
(log 12). The fields that record a stretch in progress, the window moments, the wires and the count of
draws are the model's own (logs 6, 7, 19 and 20).
The values that a FREE context holds are the model's choice (log 23), and so is the flag of a record
refilled for an epoch that is in progress again (log 26) and the report of a WRITE entry, which the manual
does not give it (log 27). -/
def Obligations.TransferEndHandsTheResultOn : Prop :=
  (∀ (b : BusNo) (e : Entry) (rest : List Entry) (t : Transfer) (after : List WireItem → State)
    (r0 r1 r2 r3 : Byte) (s : State), s.phase = .operating →
    (s.engine b).state = .transfer → (s.engine b).xfer = some t →
    (s.engine b).limitExceeded = false → (s.gen.run ≠ .priming ∨ s.gen.primeList = []) →
    s.queue b = e :: rest → e.onBus = true → (∀ x ∈ rest, x.onBus = false) →
    s.deferredSet b = [] →
    (∀ items : List WireItem, after items = (s.setEngine b { s.engine b with
      state := .idle, xfer := none, stretching := false, stretchCount := 0,
      sent := (s.engine b).sent ++ items }).setQueue b rest) →
    (∀ (i : SlotNo) (j : Client) (tag : Byte), e.kind = .now → e.slot = some i →
      e.origin = .client j tag → e.discarded = false →
      exec (.transferEnd b r0 r1 r2 r3) s = .next
        (deliverOne ((after t.wire).setSlot i
            { s.slot i with live := e.value, liveState := .valid, applied := e.stamp })
          { client := j, stamp := s.gen.c, event := .writeDone tag i .done }) ∧
      (t.limit ≤ t.made + 1 → ∀ (byte : Nat) (dataLow : Bool),
        exec (.attemptNack b ⟨byte, dataLow⟩) s = .next
          (deliverOne ((after (nackedWire byte t.wire)).setSlot i
              { s.slot i with live := e.value, liveState := .uncertain, applied := none })
            { client := j, stamp := s.gen.c, event := .writeDone tag i .failed }))) ∧
    (∀ (j : Client) (tag : Byte), e.kind = .probe → e.origin = .client j tag →
      e.discarded = false →
      exec (.transferEnd b r0 r1 r2 r3) s = .next
        (deliverOne ((after t.wire).setProbes j (s.probes j - 1))
          { client := j, stamp := s.gen.c,
            event := .probeResult tag e.device .done
              (probeValue e.order ([r0, r1, r2, r3].take e.width)) })) ∧
    (∀ (i : SlotNo) (r : BatchRef) (position : Nat) (n : Fin 4) (c d : Batch) (onTime : Bool)
        (u : State), e.kind = .write → e.slot = some i → e.origin = .record r position →
      s.sealedContext r = some n → c = s.context r.client n →
      (onTime = true ↔ e.late = false ∧ e.stamp = e.deadline ∧ e.stamp ≠ none) →
      d = { c with
        onTime := if onTime then c.onTime + 1 else c.onTime,
        late := if onTime then c.late else c.late + 1, unresolved := c.unresolved - 1 } →
      u = ((after t.wire).setSlot i
          { s.slot i with
            live := e.value, liveState := .valid,
            applied := e.stamp.map (fun c => c + BitVec.ofNat 16 (s.slot i).lead) }).setStore
        (s.store.filter (fun x => !(x.batch == r && x.position == position))) →
      (2 ≤ c.unresolved →
        exec (.transferEnd b r0 r1 r2 r3) s = .next (u.setContext r.client n d)) ∧
      (c.unresolved = 1 →
        exec (.transferEnd b r0 r1 r2 r3) s = .next (deliverOne
          ((u.setContext r.client n Batch.empty).setSealList
            (s.batches.sealList.filter (fun x => x != r)))
          { client := r.client, stamp := s.gen.c,
            event := .batchDone c.id (if d.onTime = c.count then .applied else .degraded)
              c.target d.onTime d.late c.failed (c.superseded + c.dropped) }))) ∧
    ∀ i : SlotNo, e.kind = .prime → e.slot = some i → e.discarded = false →
      s.gen.run = .priming →
      (∀ u : State, u = (after t.wire).setSlot i
          { s.slot i with live := e.value, liveState := .valid, applied := none } →
        (2 ≤ s.gen.primesOutstanding →
          exec (.transferEnd b r0 r1 r2 r3) s = .next (u.setGen { s.gen with
            primesOutstanding := s.gen.primesOutstanding - 1 })) ∧
        (s.gen.primesOutstanding = 1 →
          (∀ x ∈ s.store, x.state = .released ∨ (x.dispatch - s.gen.startEpoch).toNat ≤ 240) →
          (s.gen.mode = .triggered →
            ∃ v : State, exec (.transferEnd b r0 r1 r2 r3) s = .next (deliver v
                (offersTo (fun j => (s.eventQueue j).sched || s.gen.issuer == some j) v
                  (.scheduleState .waitTrigger .triggered .primed s.gen.issuer
                    (s.gen.startEpoch - 1)))) ∧
              v = { u with
                gen := { s.gen with
                  run := .waitTrigger, c := s.gen.startEpoch - 1, line := 0, primeList := [],
                  primesOutstanding := 0, issuer := none, window := .shut },
                outputs := v.outputs } ∧
              ∀ o : Fin 12, (v.output o).program = (s.output o).program ∧
                (v.output o).selected = false ∧ (v.output o).active = false) ∧
          (s.gen.mode = .free →
            (∀ x ∈ s.store, x.state = .waiting → x.dispatch ≠ s.gen.startEpoch) →
            ∃ v : State, exec (.transferEnd b r0 r1 r2 r3) s = .next v ∧
              v = { u with
                gen := { s.gen with
                  run := .running, c := s.gen.startEpoch, line := 0, primeList := [],
                  primesOutstanding := 0, issuer := none, window := .shut },
                outputs := v.outputs, events := v.events, draws := s.draws + 1 } ∧
              (∀ o : Fin 12, (v.output o).program = u.liveProgram o) ∧
              ((∀ j : Client, (s.eventQueue j).mark = false) →
                v.events = (deliver s
                  (offersTo (fun j => (s.eventQueue j).sched || s.gen.issuer == some j) v
                    (.scheduleState .running .free .primed s.gen.issuer
                      s.gen.startEpoch))).events)))) ∧
      (t.limit ≤ t.made + 1 → (∀ c : BusNo, s.deferredSet c = []) →
        ∀ (byte : Nat) (dataLow : Bool), ∃ v : State,
          exec (.attemptNack b ⟨byte, dataLow⟩) s = .next (deliver v
            ((s.gen.issuer.toList.map (fun j =>
              { client := j, stamp := s.gen.c, event := .primeFailed i })) ++
              offersTo (fun j => (s.eventQueue j).sched || s.gen.issuer == some j) s
                (.scheduleState .stopped s.gen.mode .primeFailed s.gen.issuer s.gen.c))) ∧
          v = { (after (nackedWire byte t.wire)).setSlot i
              { s.slot i with live := e.value, liveState := .uncertain, applied := none } with
            gen := { s.gen with
              run := .stopped, line := 0, latch := false, primeList := [],
              primesOutstanding := 0, issuer := none, window := .shut },
            outputs := v.outputs, queues := { s.queues with queue := v.queues.queue } } ∧
          (∀ c : BusNo, v.queue c =
            (((after []).queue c).filter (fun x => x.kind != .prime || x.onBus)).map (fun x =>
              if x.kind = .prime then { x with discarded := true } else x)) ∧
          ∀ o : Fin 12, (v.output o).program = (s.output o).program ∧
            (v.output o).selected = false ∧ (v.output o).active = false)) ∧
  ∀ (b : BusNo) (done : Bool) (es rest : List Entry) (t : Transfer) (r0 r1 r2 r3 : Byte)
    (byte : Nat) (dataLow : Bool) (s : State), s.phase = .operating →
    (s.engine b).state = .transfer → (s.engine b).xfer = some t →
    (s.engine b).limitExceeded = false → (done = false → t.limit ≤ t.made + 1) →
    TransferCarries b done es rest s →
    ∃ u : State, ResultsHandedOn b done es rest s u ∧ u.events = s.events ∧
      u.engine b = { s.engine b with
        state := .idle, xfer := none, stretching := false, stretchCount := 0,
        sent := (s.engine b).sent ++ if done then t.wire else nackedWire byte t.wire } ∧
      exec (if done then .transferEnd b r0 r1 r2 r3 else .attemptNack b ⟨byte, dataLow⟩) s =
        .next (deliver u (offeredByTransfer s done [r0, r1, r2, r3] es))

/-- R118: the outcome of a record whose WRITE entry leaves with its transfer's result. -/
def Obligations.WriteOutcomeFollowsTheTable : Prop :=
  ∀ (e : Entry) (done : Bool) (r : BatchRef) (position : Nat) (d : Epoch) (o : RecordOutcome)
    (w : Work), e.kind = .write → e.origin = .record r position → e.deadline = some d →
    (done = true ∧ e.late = false ∧ e.stamp = some d ∧ o = .onTime ∨
      done = true ∧ e.late = false ∧ e.stamp ≠ some d ∧ o = .late ∨
      done = true ∧ e.late = true ∧ o = .late ∨
      done = false ∧ o = .failed) →
    ∀ bytes : List Byte,
      handOn e done bytes w = resolve r position o (w.update (completeSlot e done))

/-- R135, R136, R137: a failed attempt sends nothing after the byte that was not acknowledged but a STOP.
With attempts left it is made again at once, or fails again into RECOVERY when DSDA is low; the count is
written into every entry carried. An exceeded stretch limit sends a transfer into RECOVERY; the release
of DSCL ends a stretch that has not exceeded it.
That attempts made counts failed attempts is read by inference (log 10), and so is the tick's count of
a stretch (log 6); the record of the wires is the model's own field (log 19). -/
def Obligations.FailedAttemptsAreMadeAgain : Prop :=
  (∀ (b : BusNo) (byte : Nat) (dataLow : Bool) (t : Transfer) (m : Nat) (s : State),
    s.phase = .operating →
    (s.engine b).state = .transfer → (s.engine b).xfer = some t →
    (s.engine b).limitExceeded = false → t.made + 1 < t.limit →
    m = t.made + 1 + (if dataLow then 1 else 0) →
    ∃ cut : List WireItem,
      (∀ (front back : List WireItem) (x : Byte), t.wire = front ++ .send x :: back →
        front.countP (·.isSend) = byte → cut = front ++ [.send x, .stop]) ∧
      exec (.attemptNack b ⟨byte, dataLow⟩) s = .next
        ((s.setEngine b (if dataLow then
            { s.engine b with
              state := .recovery, xfer := some { t with made := m }, stretching := false,
              stretchCount := 0, pulses := 0, sent := (s.engine b).sent ++ cut }
          else
            { s.engine b with
              xfer := some { t with made := m }, stretching := false,
              stretchCount := 0, sent := (s.engine b).sent ++ cut })).setQueue b
          ((s.queue b).map (fun e => if e.onBus then { e with attempts := m } else e)))) ∧
  (∀ (b : BusNo) (passed : Nat) (t : Transfer) (s : State), s.phase = .operating →
    (s.engine b).state = .transfer → (s.engine b).xfer = some t → (s.engine b).stretching = true →
    (s.engine b).stretchCount = 2 →
    exec (.stretchLimitExceeded ⟨b, passed⟩) s = .next
      ((s.setEngine b { s.engine b with
          state := .recovery, xfer := some { t with made := t.made + 1 }, stretching := false,
          stretchCount := 0, pulses := 0,
          sent := (s.engine b).sent ++ t.wire.take passed }).setQueue b
        ((s.queue b).map (fun e => if e.onBus then { e with attempts := t.made + 1 } else e)))) ∧
  ∀ (b : BusNo) (s : State), s.phase = .operating →
    ((s.engine b).stretching = false ∨ (s.engine b).stretchCount ≠ 2) →
    (∀ passed : Nat, exec (.stretchLimitExceeded ⟨b, passed⟩) s = .next s) ∧
    exec (.stretchEnd b) s = .next (s.setEngine b { s.engine b with stretching := false })

/-- R135, R137, R138, R139 and section 7.2: the end of a recovery. With both lines high a BUS_RECOVER bus
goes IDLE, and a transfer with attempts left is made again, or fails again into RECOVERY when its START
finds DSDA low; with no attempt left it ends FAILED. With a line low the bus is in FAULT, its transfer, if
it has one, ending FAILED, and so it is, with no STOP, when the stretch limit is exceeded. The pulses, at
most nine, and the STOP are put on the wires. BUS_FAULT goes to the BUS subscribers and the requester,
after the results of the transfer. In TRANSFER and RECOVERY the engine drives the bus's lines; in IDLE and
FAULT it releases both. The transfers are those whose failure does not make priming fail.
That attempts made counts failed attempts is read by inference (log 10). The fields that record a stretch
in progress, pulses and wires are the model's own (logs 6 and 19). The values that a FREE context holds
are the model's choice (log 23), and so is the flag of a record refilled for an epoch that is in progress
again (log 26) and the report of a WRITE entry, which the manual does not give it (log 27). -/
def Obligations.RecoveryEndFreesOrFaultsTheBus : Prop :=
  ∀ (b : BusNo) (s : State), s.phase = .operating →
    ((s.engine b).state = .idle ∨ (s.engine b).state = .fault → s.busLines b = .released) ∧
    ((s.engine b).state = .transfer ∨ (s.engine b).state = .recovery →
      s.busLines b = .driven) ∧
    (∀ passed : Nat, (s.engine b).state = .recovery → (s.engine b).xfer = none →
      (s.engine b).stretching = true → (s.engine b).stretchCount = 2 →
      exec (.stretchLimitExceeded ⟨b, passed⟩) s = .next
        (deliver
          (s.setEngine b { s.engine b with
            state := .fault, requester := none, stretching := false, stretchCount := 0,
            pulses := min passed 9,
            sent := (s.engine b).sent ++ List.replicate (min passed 9) .pulse })
          (offersTo (fun j => (s.eventQueue j).bus || (s.engine b).requester == some j) s
            (.busFault b true)))) ∧
    (∀ (passed : Nat) (t : Transfer) (es rest : List Entry), (s.engine b).state = .recovery →
      (s.engine b).xfer = some t → (s.engine b).stretching = true →
      (s.engine b).stretchCount = 2 → TransferCarries b false es rest s →
      ∃ u : State, ResultsHandedOn b false es rest s u ∧ u.events = s.events ∧
        u.engine b = { s.engine b with
          state := .fault, xfer := none, requester := none, stretching := false,
          stretchCount := 0, pulses := min passed 9,
          sent := (s.engine b).sent ++ List.replicate (min passed 9) .pulse } ∧
        exec (.stretchLimitExceeded ⟨b, passed⟩) s =
          .next (deliver u (offeredByTransfer s false [] es ++
            offersTo (fun j => (s.eventQueue j).bus || (s.engine b).requester == some j) s
              (.busFault b true)))) ∧
    ∀ (lowLooks : Nat) (dataHigh clockHigh dataLow : Bool) (sent : List WireItem),
      (s.engine b).limitExceeded = false →
      sent = (s.engine b).sent ++ List.replicate (min lowLooks 9) .pulse ++ [.stop] →
      ((s.engine b).state = .recovery → (s.engine b).xfer = none →
        exec (.recoveryEnd b lowLooks dataHigh clockHigh dataLow) s = .next
          (deliver
            (s.setEngine b { s.engine b with
              state := if dataHigh && clockHigh then .idle else .fault, requester := none,
              stretching := false, stretchCount := 0, pulses := min lowLooks 9, sent := sent })
            (offersTo (fun j => (s.eventQueue j).bus || (s.engine b).requester == some j) s
              (.busFault b (!(dataHigh && clockHigh)))))) ∧
      (∀ t : Transfer, (s.engine b).state = .recovery → (s.engine b).xfer = some t →
        t.made < t.limit → dataHigh = true → clockHigh = true → dataLow = false →
        exec (.recoveryEnd b lowLooks dataHigh clockHigh dataLow) s = .next
          ((s.setEngine b { s.engine b with
              state := .transfer, stretching := false, stretchCount := 0,
              pulses := min lowLooks 9, sent := sent }).setQueue b
            ((s.queue b).map (fun e => if e.onBus then { e with attempts := t.made } else e)))) ∧
      (∀ t : Transfer, (s.engine b).state = .recovery → (s.engine b).xfer = some t →
        t.made < t.limit → dataHigh = true → clockHigh = true → dataLow = true →
        exec (.recoveryEnd b lowLooks dataHigh clockHigh dataLow) s = .next
          ((s.setEngine b { s.engine b with
              state := .recovery, xfer := some { t with made := t.made + 1 }, stretching := false,
              stretchCount := 0, pulses := 0, sent := sent }).setQueue b
            ((s.queue b).map (fun e =>
              if e.onBus then { e with attempts := t.made + 1 } else e)))) ∧
      (∀ (t : Transfer) (es rest : List Entry), (s.engine b).state = .recovery →
        (s.engine b).xfer = some t → TransferCarries b false es rest s →
        (dataHigh = true → clockHigh = true → t.limit ≤ t.made) →
        ∃ u : State, ResultsHandedOn b false es rest s u ∧ u.events = s.events ∧
          (dataHigh = true → clockHigh = true →
            u.engine b = { s.engine b with
              state := .idle, xfer := none, stretching := false, stretchCount := 0,
              pulses := min lowLooks 9, sent := sent } ∧
            exec (.recoveryEnd b lowLooks dataHigh clockHigh dataLow) s =
              .next (deliver u (offeredByTransfer s false [] es))) ∧
          ((dataHigh = false ∨ clockHigh = false) →
            u.engine b = { s.engine b with
              state := .fault, xfer := none, requester := none, stretching := false,
              stretchCount := 0, pulses := min lowLooks 9, sent := sent } ∧
            exec (.recoveryEnd b lowLooks dataHigh clockHigh dataLow) s =
              .next (deliver u (offeredByTransfer s false [] es ++
                offersTo (fun j => (s.eventQueue j).bus || (s.engine b).requester == some j) s
                  (.busFault b true))))) ∧
      ((s.engine b).state ≠ .recovery →
        exec (.recoveryEnd b lowLooks dataHigh clockHigh dataLow) s = .next s)

/-! ### Event Queues -/

/-- R167: an offered record takes the next sequence and its stamp, and is kept at the tail of a queue
of fewer than 16, or discarded and counted lost. No other queue changes. -/
def Obligations.OfferedRecordIsKeptOrLost : Prop :=
  ∀ (s : State) (j : Client) (c : Epoch) (e : Event) (q : EventQueue), q = s.eventQueue j →
    (q.records.length < 16 →
      deliverOne s { client := j, stamp := c, event := e } = s.setEventQueue j { q with
        records := q.records ++ [{ event := e, sequence := q.nextSequence, stamp := c }],
        nextSequence := q.nextSequence + 1 }) ∧
    (16 ≤ q.records.length → q.lost ≤ 255 →
      deliverOne s { client := j, stamp := c, event := e } = s.setEventQueue j { q with
        lost := min (q.lost + 1) 255, nextSequence := q.nextSequence + 1 })

/-- R170: FETCH takes the oldest records, and appends OVERFLOW when records were lost and at least one
left. -/
def Obligations.FetchReturnsTheOldestRecords : Prop :=
  ∀ (k : Client) (tag count : Byte) (q : EventQueue) (s : State), InService k (.fetch k tag count) s →
    q = s.eventQueue k →
    (count ≠ 0x01 → count ≠ 0x02 →
      exec (.fetch k tag count) s = .next (endService k tag 0x70 ⟨.badValue, []⟩ s)) ∧
    ∀ taken rest : List EventRecord, (count = 0x01 ∨ count = 0x02) → q.records = taken ++ rest →
      (taken.length = count.toNat ∨ taken.length < count.toNat ∧ rest = []) →
      ((taken = [] ∨ q.lost = 0) →
        exec (.fetch k tag count) s = .next (endService k tag 0x70
          ⟨.ok, [BitVec.ofNat 8 taken.length, BitVec.ofNat 8 rest.length] ++
            taken.flatMap recordBytes⟩
          (s.setEventQueue k { q with records := rest }))) ∧
      (taken ≠ [] → q.lost ≠ 0 → rest.length < 16 →
        exec (.fetch k tag count) s = .next (endService k tag 0x70
          ⟨.ok, [BitVec.ofNat 8 taken.length, BitVec.ofNat 8 (rest.length + 1)] ++
            taken.flatMap recordBytes⟩
          (s.setEventQueue k { q with
            records := rest ++
              [{ event := .overflow q.lost, sequence := q.nextSequence, stamp := s.gen.c }],
            lost := 0, nextSequence := q.nextSequence + 1 })))

/-- R169: SUBSCRIBE replaces the subscriptions and starts the mark counter at 0; the answer is the
previous set and divider. -/
def Obligations.SubscribeReplacesTheSubscriptions : Prop :=
  ∀ (k : Client) (tag set divider : Byte) (q : EventQueue) (s : State),
    InService k (.subscribe k tag set divider) s → q = s.eventQueue k →
    ((8 ≤ set.toNat ∨ set.getLsbD 2 = true ∧ divider = 0x00) →
      exec (.subscribe k tag set divider) s = .next (endService k tag 0x71 ⟨.badValue, []⟩ s)) ∧
    (set.toNat < 8 → (set.getLsbD 2 = true → divider ≠ 0x00) →
      exec (.subscribe k tag set divider) s = .next (endService k tag 0x71
        ⟨.ok, [BitVec.ofNat 8 ((if q.sched then 1 else 0) + (if q.bus then 2 else 0) +
          (if q.mark then 4 else 0)), BitVec.ofNat 8 q.divider]⟩
        (s.setEventQueue k { q with
          sched := set.getLsbD 0, bus := set.getLsbD 1, mark := set.getLsbD 2,
          divider := if set.getLsbD 2 then divider.toNat else 0, counter := 0 })))

/-! ### Host ports -/

/-- R34, R60, R73, R125, R165, R173: DETACH gives up the client's claims, token, lease and OPEN batch, its
WAITING NOW and PROBE entries and its event queue but for the next sequence; its ON_BUS probes are
discarded. Other clients' standing state, every other entry of both queues in its order, the slots, the
seal list and the ports stay. The deferred records of each bus enter the places that are free.
That a slot of the prime list is placed too where an entry leaves during PRIMING is the model's choice
(log 24): R86 says that DETACH leaves the generator unchanged.
The values that a FREE context holds are the model's choice (log 23), and so is the flag of a record
refilled for an epoch that is in progress again (log 26) and the report of a WRITE entry, which the manual
does not give it (log 27). -/
def Obligations.DetachGivesUpStandingState : Prop :=
  ∀ (k : Client) (tag : Byte) (s : State), InService k (.detach k tag) s →
    ∃ t : State, exec (.detach k tag) s = .next (endService k tag 0x7E ⟨.ok, []⟩ t) ∧
      (∀ i : SlotNo, t.owner i = if s.owner i = some k then none else s.owner i) ∧
      t.claims.token = (if s.claims.token = some k then none else s.claims.token) ∧
      t.lease k = { setting := 0, counter := 0 } ∧ (∀ j : Client, j ≠ k → t.lease j = s.lease j) ∧
      (∀ n : Fin 4, OpenAt k n s → t.context k n = Batch.empty) ∧
      (∀ (j : Client) (n : Fin 4), (j ≠ k ∨ (s.context j n).state ≠ .opened) →
        t.context j n = s.context j n) ∧
      t.eventQueue k = {
        records := [], lost := 0, nextSequence := (s.eventQueue k).nextSequence, sched := false,
        bus := false, mark := false, divider := 0, counter := 0 } ∧
      (∀ j : Client, j ≠ k → t.eventQueue j = s.eventQueue j) ∧
      (∀ (b : BusNo), ∀ e ∈ t.queue b, e.onBus = false → (e.kind = .now ∨ e.kind = .probe) →
        e.isOf k = false) ∧
      (∀ b : BusNo, (t.queue b).filter (·.onBus) = ((s.queue b).filter (·.onBus)).map (fun e =>
        if e.kind = .probe ∧ e.isOf k = true then { e with discarded := true } else e)) ∧
      (∀ (b : BusNo) (kept : List Entry),
        kept = ((s.queue b).filter (fun e =>
            !(!e.onBus && (e.kind == .now || e.kind == .probe) && e.isOf k))).map (fun e =>
          if e.kind = .probe ∧ e.isOf k = true then { e with discarded := true } else e) →
        (∃ tail : List Entry, t.queue b = kept ++ tail ∧
          ∀ e ∈ tail, e.onBus = false ∧ (e.kind = .write ∨ e.kind = .prime)) ∧
        (s.gen.run ≠ .priming →
          t.queue b = kept ++ (enteringBehind s b kept).map (refillEntryFor s))) ∧
      t.probes k = s.probes k - waitingProbes s k ∧
      (∀ j : Client, j ≠ k → t.probes j = s.probes j) ∧
      t.slots = s.slots ∧ t.batches.sealList = s.batches.sealList ∧ t.buses = s.buses ∧
      t.outputs = s.outputs ∧ t.host = s.host ∧ t.phase = s.phase ∧ t.pending = s.pending ∧
      t.store.map (fun x => { x with state := .waiting }) =
        s.store.map (fun x => { x with state := .waiting }) ∧
      t.gen = { s.gen with primeList := t.gen.primeList } ∧
      (s.gen.run ≠ .priming → t.gen = s.gen)

/-- R29, R156, R158, R160, R161, R163, R164, R174: a message that a READY port hears is answered BAD_CODE
or BAD_LENGTH, or becomes WORKING; with no request in service the first waiting port from the pointer is
then granted, unless the next message is taken before that. A message at a WORKING port, or one that was
not acknowledged at its code byte, is dropped. Every one reloads the lease.
That a two-wire message without its own code-byte row is judged at its end is the model's choice
(log 4); so is the operand that says which message is taken before the grant (log 25). The fields that record
what a port showed are the model's own (log 19). -/
def Obligations.MessagesAreTakenOrRefused : Prop :=
  ∀ (k : Client) (via : Carrier) (bytes : List Byte) (beforeGrant : Bool) (p q : Port) (s : State),
    s.phase = .operating → p = s.port k → bytes ≠ [] →
    (via = .twoWire p.strap ∧ p.lock = .twoWire ∧ q = { p with judged := none } ∨
      ∃ bits : Fin 8, via = .fourWire bits ∧ p.lock = .fourWire ∧ bytes.getD 0 0 ≠ 0x00 ∧
        q = { p with
          frame := none,
          shown := ((p.frame.getD p.response) ++ List.replicate bytes.length 0x00).take
            bytes.length,
          shownBits := (List.range bits.val).map (fun j =>
            ((p.frame.getD p.response).getD bytes.length 0x00).getMsbD j) }) →
    (p.state = .ready → (p.lock = .fourWire ∨ p.judged ≠ some false) →
      (parseRefusal bytes = some .badCode →
        exec (.messageTaken k ⟨via, beforeGrant⟩ bytes) s = .next ((reloadLease k s).setPort k
          { q with response := [0x10, bytes.getD 1 0, bytes.getD 0 0] })) ∧
      (parseRefusal bytes = some .badLength →
        exec (.messageTaken k ⟨via, beforeGrant⟩ bytes) s = .next ((reloadLease k s).setPort k
          { q with response := [0x11, bytes.getD 1 0, bytes.getD 0 0] })) ∧
      (parseRefusal bytes = none → ∀ u : State, u = (reloadLease k s).setPort k
          { q with
            state := .working, request := some bytes,
            response := [0x02, bytes.getD 1 0, bytes.getD 0 0] } →
        ((s.host.inService ≠ none ∨ beforeGrant = true) →
          exec (.messageTaken k ⟨via, beforeGrant⟩ bytes) s = .next u) ∧
        (s.host.inService = none → beforeGrant = false →
          ∀ n : Fin 4, (u.port (s.host.pointer + n)).state = .working →
            (∀ m : Fin 4, m < n → (u.port (s.host.pointer + m)).state = .ready) →
            exec (.messageTaken k ⟨via, beforeGrant⟩ bytes) s = .next { u with host := { u.host with
              pointer := s.host.pointer + n + 1, inService := some (s.host.pointer + n) } }))) ∧
    ((p.state = .working ∨ p.lock = .twoWire ∧ p.judged = some false) →
      exec (.messageRefused k via bytes) s = .next ((reloadLease k s).setPort k q))

/-- R154 to R159, R178: what a port locks to and shows. An UNDETERMINED port locks at the first of the two
conditions, a falling HSEL_N edge beginning a frame at once, and keeps its lock; a START within a
transaction under way since start-up is ignored, up to its STOP, and so is every START where HSEL_N was
low at the end of start-up, until it has risen and fallen again. A two-wire read to its strap address and
a four-wire poll show the response buffer, then 00h; a poll shows the copy taken at its frame's start and
reloads the lease; a frame with no complete byte shows the bits its clocks reach and reloads none; the
code byte of a two-wire write is acknowledged by a READY port. HDO_k is driven through a four-wire frame
and at high impedance otherwise.
That a row the port does not hear changes nothing is the model's choice (log 4). The fields that record
what a port showed, the transaction it ignores and the edge it awaits are the model's own (log 19). -/
def Obligations.PortTransactionsShowTheResponse : Prop :=
  ∀ (k : Client) (p : Port) (s : State), s.phase = .operating → p = s.port k →
    (s.hostDataOut k = .driven ↔ p.lock = .fourWire ∧ p.frame ≠ none) ∧
    (∀ (address : BitVec 7) (count : Nat), p.lock = .twoWire → address = p.strap →
      exec (.readTransaction k address count) s = .next (s.setPort k
        { p with
          shown := (p.response ++ List.replicate count 0x00).take count, shownBits := [] }) ∧
      exec (.twoWireCodeByte k address) s = .next (s.setPort k
        { p with judged := some (decide (p.state = .ready)) })) ∧
    (∀ (address : BitVec 7) (count : Nat), (p.lock ≠ .twoWire ∨ address ≠ p.strap) →
      exec (.readTransaction k address count) s = .next s ∧
      exec (.twoWireCodeByte k address) s = .next s) ∧
    (p.lock = .fourWire →
      exec (.fourWireFrameStart k) s = .next (s.setPort k
        { p with frame := some p.response }) ∧
      ∀ (bits : Fin 8) (copy : List Byte), copy = p.frame.getD p.response →
        (∀ extra : Nat, exec (.pollNone k (8 * extra + bits.val)) s = .next
          ((reloadLease k s).setPort k
            { p with
              frame := none,
              shown := (copy ++ List.replicate (extra + 1) 0x00).take (extra + 1),
              shownBits := (List.range bits.val).map (fun j =>
                (copy.getD (extra + 1) 0x00).getMsbD j) })) ∧
        ∀ beforeGrant : Bool,
          exec (.messageTaken k ⟨.fourWire bits, beforeGrant⟩ []) s = .next (s.setPort k
            { p with
              frame := none, shown := [],
              shownBits := (List.range bits.val).map (fun j =>
                (copy.getD 0 0x00).getMsbD j) })) ∧
    (p.lock ≠ .fourWire →
      exec (.fourWireFrameStart k) s = .next s ∧
      ∀ clocks : Nat, exec (.pollNone k clocks) s = .next s) ∧
    (p.lock = .undetermined →
      (p.underWay = false → p.awaitsFall = false →
        exec (.framingDetection k (.startCondition true)) s = .next (s.setPort k
          { p with lock := .twoWire })) ∧
      ((p.underWay = true ∨ p.awaitsFall = true) →
        exec (.framingDetection k (.startCondition true)) s = .next s) ∧
      exec (.framingDetection k (.startCondition false)) s = .next s ∧
      exec (.framingDetection k .stopCondition) s = .next (s.setPort k
        { p with underWay := false }) ∧
      exec (.framingDetection k .selectFalls) s = .next (s.setPort k
        { p with
          lock := .fourWire, frame := some p.response, underWay := false,
          awaitsFall := false })) ∧
    (p.lock ≠ .undetermined → ∀ condition : FramingCondition,
      exec (.framingDetection k condition) s = .next s)

/-! ### Ticks, leases, reset and start-up -/

/-- R30, R31, R57, R136: a housekeeping tick counts every running lease down and measures the clock
stretches. A lease that it counts down to 0 lapses: that client's slots and token become unowned, its
OPEN batch is aborted, and it is told CLAIMS_LAPSED and then BATCH_ABORTED. Every other client keeps what
it has, and nothing else changes.
How the tick learns who holds DSCL low is read by inference (log 6).
The values that a FREE context holds are the model's choice (log 23). -/
def Obligations.TickCountsLeasesAndStretches : Prop :=
  ∀ (held0 held1 : Bool) (s : State), s.phase = .operating →
    ∃ t : State, exec (.housekeepingTick held0 held1) s = .next t ∧
      t = { s with
        claims := t.claims, batches := { s.batches with context := t.batches.context },
        events := t.events, buses := { s.buses with engine := t.buses.engine } } ∧
      (∀ k : Client, t.lease k = { s.lease k with
        counter := if (s.lease k).setting = 0 then (s.lease k).counter
          else (s.lease k).counter - 1 }) ∧
      (∀ i : SlotNo, s.owner i = none → t.owner i = none) ∧
      (s.claims.token = none → t.claims.token = none) ∧
      (∀ k : Client, ((s.lease k).setting = 0 ∨ (s.lease k).counter ≠ 1) →
        (∀ i : SlotNo, s.owner i = some k → t.owner i = some k) ∧
        (s.claims.token = some k → t.claims.token = some k) ∧
        (∀ n : Fin 4, t.context k n = s.context k n) ∧ t.eventQueue k = s.eventQueue k) ∧
      (∀ k : Client, (s.lease k).setting ≠ 0 → (s.lease k).counter = 1 →
        (∀ i : SlotNo, s.owner i = some k → t.owner i = none) ∧
        (s.claims.token = some k → t.claims.token = none) ∧
        ∃ (count : Nat) (told : List Offer),
          count = (List.finRange 256).countP (fun i => s.owner i == some k) ∧
          t.eventQueue k = (deliver s
            ({ client := k, stamp := s.gen.c,
               event := .claimsLapsed count (s.claims.token == some k) } :: told)).eventQueue k ∧
          (∀ n : Fin 4, OpenAt k n s →
            told = [{ client := k, stamp := s.gen.c,
                      event := .batchAborted (s.context k n).id }] ∧
            t.context k n = Batch.empty ∧ ∀ m : Fin 4, m ≠ n → t.context k m = s.context k m) ∧
          ((∀ n : Fin 4, (s.context k n).state ≠ .opened) →
            told = [] ∧ ∀ n : Fin 4, t.context k n = s.context k n)) ∧
      ∀ (b : BusNo) (held : Bool), (b = 0 ∧ held = held0 ∨ b = 1 ∧ held = held1) →
        ((s.engine b).state = .idle ∨ (s.engine b).state = .fault →
          t.engine b = s.engine b) ∧
        ((s.engine b).state = .transfer ∨ (s.engine b).state = .recovery →
          ((s.engine b).stretching = true → (s.engine b).stretchCount = 2 →
            t.engine b = s.engine b) ∧
          ((s.engine b).stretching = false ∨ (s.engine b).stretchCount ≠ 2 →
            (held = false → t.engine b = { s.engine b with stretching := false }) ∧
            (held = true → t.engine b = { s.engine b with
              stretching := true,
              stretchCount := if (s.engine b).stretching then (s.engine b).stretchCount + 1
                else 1 })))

/-- R31, R57: a lease that is counted down to 0 lapses: the client's slots and token become unowned, its
OPEN batch is aborted, and it is told CLAIMS_LAPSED and then BATCH_ABORTED. At another count the row has
no lapse to perform (log 5, the model's choice).
The values that a FREE context holds are the model's choice (log 23). -/
def Obligations.LeaseLapseGivesUpClaims : Prop :=
  ∀ (k : Client) (s : State), s.phase = .operating →
    ((s.lease k).setting ≠ 0 → (s.lease k).counter = 1 →
      ∃ (u : State) (count : Nat) (told : List Offer),
        count = (List.finRange 256).countP (fun i => s.owner i == some k) ∧
        exec (.leaseLapse k) s = .next (deliver u
          ({ client := k, stamp := s.gen.c,
             event := .claimsLapsed count (s.claims.token == some k) } :: told)) ∧
        (∀ i : SlotNo, u.owner i = if s.owner i = some k then none else s.owner i) ∧
        u.claims.token = (if s.claims.token = some k then none else s.claims.token) ∧
        u.lease k = { s.lease k with counter := 0 } ∧
        (∀ j : Client, j ≠ k → u.lease j = s.lease j) ∧
        (∀ n : Fin 4, OpenAt k n s →
          u.batches = (s.setContext k n Batch.empty).batches ∧
          told = [{ client := k, stamp := s.gen.c,
                    event := .batchAborted (s.context k n).id }]) ∧
        ((∀ n : Fin 4, (s.context k n).state ≠ .opened) → u.batches = s.batches ∧ told = []) ∧
        u = { s with claims := u.claims, batches := u.batches }) ∧
    (((s.lease k).setting = 0 ∨ (s.lease k).counter ≠ 1) → exec (.leaseLapse k) s = .next s)

/-- R141, R177, R178: RESET_N low, power-up and a supply fall take every block to its pin-reset values; a
pulse that is too short does so or does nothing (an open value, log 15). Release begins the start-up
interval, and its end samples the straps and notes the two-wire transactions under way and each HSEL_N
that is low. Until then no
other command has an effect (log 1), and both lines of both downstream buses are released.
`State.reset` stands for the pin-reset values, and holds values of the model's choice beside the
manual's: the strap addresses (log 2), the model's own fields (logs 6, 7 and 19) and the fields of a FREE
context (log 23). That the count of draws outlives a pin reset, and rises with a pulse that is too short
whether it resets or not, is the model's choice too (log 20). -/
def Obligations.ResetAndStartupTakeTheirPhases : Prop :=
  (∀ (cause : ResetCause) (s : State), cause ≠ .shortPulse →
    exec (.pinReset cause) s =
      .next { State.reset with phase := .held, draws := s.draws, pending := s.pending }) ∧
  (∀ s : State, ∃ t : State, exec (.pinReset .shortPulse) s = .next t ∧
    (t = { s with draws := s.draws + 1 } ∨
      t = { State.reset with
        phase := .held, draws := s.draws + 1, pending := s.pending })) ∧
  (∀ s : State, s.phase = .held → exec .resetRelease s = .next { s with phase := .startup }) ∧
  (∀ (p0 p1 p2 p3 : PortPins) (s : State), s.phase = .startup →
    ∃ t : State, exec (.startupEnd p0 p1 p2 p3) s = .next t ∧
      t = { s with phase := .operating, host := { s.host with port := t.host.port } } ∧
      ∀ (k : Client) (p : PortPins),
        (k = 0 ∧ p = p0 ∨ k = 1 ∧ p = p1 ∨ k = 2 ∧ p = p2 ∨ k = 3 ∧ p = p3) →
        t.port k = { s.port k with
          strap := BitVec.ofNat 7 (0x58 + p.addr.toNat), underWay := p.underWay,
          awaitsFall := p.selectLow }) ∧
  (∀ (b : BusNo) (s : State), s.phase ≠ .operating → s.busLines b = .released) ∧
  ∀ (i : Instr) (s : State), s.phase ≠ .operating → (∀ cause, i ≠ .pinReset cause) →
    (s.phase = .held → i ≠ .resetRelease) →
    (s.phase = .startup → ∀ p0 p1 p2 p3, i ≠ .startupEnd p0 p1 p2 p3) →
    exec i s = .next s

/-! ### Laws of the whole part -/

/-- R63, R72, R73, R109, R111, R166: no step fills a queue, the store or an event queue beyond its places;
every step keeps at most one WAITING WRITE or NOW entry and at most one DEFERRED record for one slot, not
both, and deferred records only behind a full queue. The law of the queues is kept together with those of
the batches and of the references. The values that a FREE context holds are the model's choice (log 23). -/
def Obligations.EveryStepKeepsCapacities : Prop :=
  KeptByEveryStep StoresWithinCapacity ∧ KeptByEveryStep EventQueuesWithinRules ∧
    KeptByEveryStep (fun s => BatchesWithinRules s ∧ NothingDangles s ∧ QueuesWithinRules s)

/-- R86, R90, R147, R149: every step keeps the generator's fields in line with its run state, and every
output inactive outside an epoch and at its program's level. That the field of the window moments handed
on reads shut outside an epoch is the model's choice (log 7). -/
def Obligations.EveryStepKeepsTheSchedule : Prop :=
  KeptByEveryStep GeneratorWithinRules ∧ KeptByEveryStep OutputsWithinRules

/-- R20, R153, R154: every step keeps the ports' buffers in line with their states and locks, and the
owners and leases within their rules. -/
def Obligations.EveryStepKeepsPortsAndClaims : Prop :=
  KeptByEveryStep PortsWithinRules ∧ KeptByEveryStep ClaimTableWithinRules

/-- R36, R37, R38, R51, R64: every step keeps the batch contexts within their rules, the outcome counts and
the unresolved records of a sealed batch summing to its record count, and at most one pending record for
one slot and one target.
The values that a FREE context holds are the model's choice (log 23). -/
def Obligations.EveryStepKeepsBatches : Prop := KeptByEveryStep BatchesWithinRules

/-- R4, R9, R67, R127, R129, R142: every step keeps the local slots as the hardware fixes them, every
value admissible, and every reference to a slot or a device a live one. -/
def Obligations.EveryStepKeepsTheTables : Prop :=
  KeptByEveryStep LocalSlotsWithinRules ∧ KeptByEveryStep ValuesAdmissible ∧
    KeptByEveryStep NothingDangles

/-- R109, R131, R136: every step keeps the ON_BUS entries at the front of their queue, and each engine's
transfer in line with its state. -/
def Obligations.EveryStepKeepsTransfers : Prop := KeptByEveryStep TransfersWithinRules

/-- The laws that every step keeps hold after reset. That `State.reset` stands after the start-up
interval is the model's choice (log 1), and so is that the field of the window moments handed on reads
shut there (log 7).
The values that a FREE context holds are the model's choice (log 23). -/
def Obligations.ResetIsWithinEveryRule : Prop :=
  StoresWithinCapacity State.reset ∧ EventQueuesWithinRules State.reset ∧
    GeneratorWithinRules State.reset ∧ OutputsWithinRules State.reset ∧
    PortsWithinRules State.reset ∧ ClaimTableWithinRules State.reset ∧
    BatchesWithinRules State.reset ∧ LocalSlotsWithinRules State.reset ∧
    ValuesAdmissible State.reset ∧ NothingDangles State.reset ∧ QueuesWithinRules State.reset ∧
    TransfersWithinRules State.reset

/-- Chapters 1, 2, 5, 7, 9 and 10: which commands may change the standing tables. The device table, the
geometry, the bus speeds, the subscriptions, the schedule token, the owners, the slot descriptors and C
change only by the commands named, and a set framing lock only by a pin reset. -/
def Obligations.TablesChangeOnlyByTheirCommands : Prop :=
  ∀ (i : Instr) (s t : State), exec i s = .next t → (∀ cause, i ≠ .pinReset cause) →
    (t.buses.device ≠ s.buses.device →
      ∃ k tag device state bus address size retries,
        i = .defineDevice k tag device state bus address size retries) ∧
    ((t.gen.lspan ≠ s.gen.lspan ∨ t.gen.vspan ≠ s.gen.vspan ∨ t.gen.wopen ≠ s.gen.wopen ∨
        t.gen.wclose ≠ s.gen.wclose ∨ t.gen.edge ≠ s.gen.edge) →
      ∃ k tag lspan vspan wopen wclose edge,
        i = .setGeometry k tag lspan vspan wopen wclose edge) ∧
    (∀ b : BusNo, (t.engine b).speed ≠ (s.engine b).speed →
      ∃ k tag bus speed, i = .busConfig k tag bus speed) ∧
    (∀ j : Client, ((t.eventQueue j).sched ≠ (s.eventQueue j).sched ∨
        (t.eventQueue j).bus ≠ (s.eventQueue j).bus ∨
        (t.eventQueue j).mark ≠ (s.eventQueue j).mark ∨
        (t.eventQueue j).divider ≠ (s.eventQueue j).divider) →
      (∃ tag set divider, i = .subscribe j tag set divider) ∨ ∃ tag, i = .detach j tag) ∧
    (t.claims.token ≠ s.claims.token →
      (∃ k tag, i = .claimSchedule k tag) ∨ (∃ k tag, i = .releaseSchedule k tag) ∨
      (∃ k tag, i = .detach k tag) ∨ (∃ h0 h1, i = .housekeepingTick h0 h1) ∨
      ∃ k, i = .leaseLapse k) ∧
    (t.claims.owner ≠ s.claims.owner →
      (∃ k tag first count, i = .claim k tag first count) ∨
      (∃ k tag first count, i = .release k tag first count) ∨
      (∃ k tag named, i = .revoke k tag named) ∨ (∃ k tag slot, i = .undefineSlot k tag slot) ∨
      (∃ k tag, i = .detach k tag) ∨ (∃ h0 h1, i = .housekeepingTick h0 h1) ∨
      ∃ k, i = .leaseLapse k) ∧
    (∀ n : SlotNo,
      { t.slot n with live := 0, liveState := .valid, applied := none } ≠
        { s.slot n with live := 0, liveState := .valid, applied := none } →
      (∃ k tag slot device register format kind min max initial,
        i = .defineSlot k tag slot device register format kind min max initial ∧
          slotNo slot = n) ∨
      ∃ k tag slot, i = .undefineSlot k tag slot ∧ slotNo slot = n) ∧
    (t.gen.c ≠ s.gen.c →
      (∃ k tag mode epoch, i = .start k tag mode epoch) ∨ i = .epochEnd ∨
      (∃ edge heldFor, i = .trigger edge heldFor) ∨
      ∃ b r0 r1 r2 r3, i = .transferEnd b r0 r1 r2 r3) ∧
    ∀ k : Client, (s.port k).lock ≠ .undetermined → (t.port k).lock = (s.port k).lock
end

