-- ==== Sys2Proof/Laws/State.lean ====
section
/-! SUPPORT. One lemma per field per update of the state, true by unfolding, and what each reader
gives after each update of its own table. -/

set_option Elab.async false

namespace Sys2Proof.Machine

open Sys2Proof

variable (s : State)

/-! ### setSlot -/

@[simp] theorem State.setSlot_phase (i : SlotNo) (r : Slot) : (s.setSlot i r).phase = s.phase := rfl
@[simp] theorem State.setSlot_claims (i : SlotNo) (r : Slot) : (s.setSlot i r).claims = s.claims := rfl
@[simp] theorem State.setSlot_batches (i : SlotNo) (r : Slot) : (s.setSlot i r).batches = s.batches := rfl
@[simp] theorem State.setSlot_store (i : SlotNo) (r : Slot) : (s.setSlot i r).store = s.store := rfl
@[simp] theorem State.setSlot_gen (i : SlotNo) (r : Slot) : (s.setSlot i r).gen = s.gen := rfl
@[simp] theorem State.setSlot_queues (i : SlotNo) (r : Slot) : (s.setSlot i r).queues = s.queues := rfl
@[simp] theorem State.setSlot_buses (i : SlotNo) (r : Slot) : (s.setSlot i r).buses = s.buses := rfl
@[simp] theorem State.setSlot_outputs (i : SlotNo) (r : Slot) : (s.setSlot i r).outputs = s.outputs := rfl
@[simp] theorem State.setSlot_host (i : SlotNo) (r : Slot) : (s.setSlot i r).host = s.host := rfl
@[simp] theorem State.setSlot_events (i : SlotNo) (r : Slot) : (s.setSlot i r).events = s.events := rfl
@[simp] theorem State.setSlot_draws (i : SlotNo) (r : Slot) : (s.setSlot i r).draws = s.draws := rfl
@[simp] theorem State.setSlot_pending (i : SlotNo) (r : Slot) : (s.setSlot i r).pending = s.pending := rfl

/-! ### setOwner -/

@[simp] theorem State.setOwner_phase (i : SlotNo) (o : Option Client) : (s.setOwner i o).phase = s.phase := rfl
@[simp] theorem State.setOwner_slots (i : SlotNo) (o : Option Client) : (s.setOwner i o).slots = s.slots := rfl
@[simp] theorem State.setOwner_batches (i : SlotNo) (o : Option Client) : (s.setOwner i o).batches = s.batches := rfl
@[simp] theorem State.setOwner_store (i : SlotNo) (o : Option Client) : (s.setOwner i o).store = s.store := rfl
@[simp] theorem State.setOwner_gen (i : SlotNo) (o : Option Client) : (s.setOwner i o).gen = s.gen := rfl
@[simp] theorem State.setOwner_queues (i : SlotNo) (o : Option Client) : (s.setOwner i o).queues = s.queues := rfl
@[simp] theorem State.setOwner_buses (i : SlotNo) (o : Option Client) : (s.setOwner i o).buses = s.buses := rfl
@[simp] theorem State.setOwner_outputs (i : SlotNo) (o : Option Client) : (s.setOwner i o).outputs = s.outputs := rfl
@[simp] theorem State.setOwner_host (i : SlotNo) (o : Option Client) : (s.setOwner i o).host = s.host := rfl
@[simp] theorem State.setOwner_events (i : SlotNo) (o : Option Client) : (s.setOwner i o).events = s.events := rfl
@[simp] theorem State.setOwner_draws (i : SlotNo) (o : Option Client) : (s.setOwner i o).draws = s.draws := rfl
@[simp] theorem State.setOwner_pending (i : SlotNo) (o : Option Client) : (s.setOwner i o).pending = s.pending := rfl

/-! ### setToken -/

@[simp] theorem State.setToken_phase (o : Option Client) : (s.setToken o).phase = s.phase := rfl
@[simp] theorem State.setToken_slots (o : Option Client) : (s.setToken o).slots = s.slots := rfl
@[simp] theorem State.setToken_batches (o : Option Client) : (s.setToken o).batches = s.batches := rfl
@[simp] theorem State.setToken_store (o : Option Client) : (s.setToken o).store = s.store := rfl
@[simp] theorem State.setToken_gen (o : Option Client) : (s.setToken o).gen = s.gen := rfl
@[simp] theorem State.setToken_queues (o : Option Client) : (s.setToken o).queues = s.queues := rfl
@[simp] theorem State.setToken_buses (o : Option Client) : (s.setToken o).buses = s.buses := rfl
@[simp] theorem State.setToken_outputs (o : Option Client) : (s.setToken o).outputs = s.outputs := rfl
@[simp] theorem State.setToken_host (o : Option Client) : (s.setToken o).host = s.host := rfl
@[simp] theorem State.setToken_events (o : Option Client) : (s.setToken o).events = s.events := rfl
@[simp] theorem State.setToken_draws (o : Option Client) : (s.setToken o).draws = s.draws := rfl
@[simp] theorem State.setToken_pending (o : Option Client) : (s.setToken o).pending = s.pending := rfl

/-! ### setLease -/

@[simp] theorem State.setLease_phase (k : Client) (l : Lease) : (s.setLease k l).phase = s.phase := rfl
@[simp] theorem State.setLease_slots (k : Client) (l : Lease) : (s.setLease k l).slots = s.slots := rfl
@[simp] theorem State.setLease_batches (k : Client) (l : Lease) : (s.setLease k l).batches = s.batches := rfl
@[simp] theorem State.setLease_store (k : Client) (l : Lease) : (s.setLease k l).store = s.store := rfl
@[simp] theorem State.setLease_gen (k : Client) (l : Lease) : (s.setLease k l).gen = s.gen := rfl
@[simp] theorem State.setLease_queues (k : Client) (l : Lease) : (s.setLease k l).queues = s.queues := rfl
@[simp] theorem State.setLease_buses (k : Client) (l : Lease) : (s.setLease k l).buses = s.buses := rfl
@[simp] theorem State.setLease_outputs (k : Client) (l : Lease) : (s.setLease k l).outputs = s.outputs := rfl
@[simp] theorem State.setLease_host (k : Client) (l : Lease) : (s.setLease k l).host = s.host := rfl
@[simp] theorem State.setLease_events (k : Client) (l : Lease) : (s.setLease k l).events = s.events := rfl
@[simp] theorem State.setLease_draws (k : Client) (l : Lease) : (s.setLease k l).draws = s.draws := rfl
@[simp] theorem State.setLease_pending (k : Client) (l : Lease) : (s.setLease k l).pending = s.pending := rfl

/-! ### setContext -/

@[simp] theorem State.setContext_phase (k : Client) (n : Fin 4) (b : Batch) : (s.setContext k n b).phase = s.phase := rfl
@[simp] theorem State.setContext_slots (k : Client) (n : Fin 4) (b : Batch) : (s.setContext k n b).slots = s.slots := rfl
@[simp] theorem State.setContext_claims (k : Client) (n : Fin 4) (b : Batch) : (s.setContext k n b).claims = s.claims := rfl
@[simp] theorem State.setContext_store (k : Client) (n : Fin 4) (b : Batch) : (s.setContext k n b).store = s.store := rfl
@[simp] theorem State.setContext_gen (k : Client) (n : Fin 4) (b : Batch) : (s.setContext k n b).gen = s.gen := rfl
@[simp] theorem State.setContext_queues (k : Client) (n : Fin 4) (b : Batch) : (s.setContext k n b).queues = s.queues := rfl
@[simp] theorem State.setContext_buses (k : Client) (n : Fin 4) (b : Batch) : (s.setContext k n b).buses = s.buses := rfl
@[simp] theorem State.setContext_outputs (k : Client) (n : Fin 4) (b : Batch) : (s.setContext k n b).outputs = s.outputs := rfl
@[simp] theorem State.setContext_host (k : Client) (n : Fin 4) (b : Batch) : (s.setContext k n b).host = s.host := rfl
@[simp] theorem State.setContext_events (k : Client) (n : Fin 4) (b : Batch) : (s.setContext k n b).events = s.events := rfl
@[simp] theorem State.setContext_draws (k : Client) (n : Fin 4) (b : Batch) : (s.setContext k n b).draws = s.draws := rfl
@[simp] theorem State.setContext_pending (k : Client) (n : Fin 4) (b : Batch) : (s.setContext k n b).pending = s.pending := rfl

/-! ### setSealList -/

@[simp] theorem State.setSealList_phase (l : List BatchRef) : (s.setSealList l).phase = s.phase := rfl
@[simp] theorem State.setSealList_slots (l : List BatchRef) : (s.setSealList l).slots = s.slots := rfl
@[simp] theorem State.setSealList_claims (l : List BatchRef) : (s.setSealList l).claims = s.claims := rfl
@[simp] theorem State.setSealList_store (l : List BatchRef) : (s.setSealList l).store = s.store := rfl
@[simp] theorem State.setSealList_gen (l : List BatchRef) : (s.setSealList l).gen = s.gen := rfl
@[simp] theorem State.setSealList_queues (l : List BatchRef) : (s.setSealList l).queues = s.queues := rfl
@[simp] theorem State.setSealList_buses (l : List BatchRef) : (s.setSealList l).buses = s.buses := rfl
@[simp] theorem State.setSealList_outputs (l : List BatchRef) : (s.setSealList l).outputs = s.outputs := rfl
@[simp] theorem State.setSealList_host (l : List BatchRef) : (s.setSealList l).host = s.host := rfl
@[simp] theorem State.setSealList_events (l : List BatchRef) : (s.setSealList l).events = s.events := rfl
@[simp] theorem State.setSealList_draws (l : List BatchRef) : (s.setSealList l).draws = s.draws := rfl
@[simp] theorem State.setSealList_pending (l : List BatchRef) : (s.setSealList l).pending = s.pending := rfl

/-! ### setPreviousId -/

@[simp] theorem State.setPreviousId_phase (k : Client) (id : Nat) : (s.setPreviousId k id).phase = s.phase := rfl
@[simp] theorem State.setPreviousId_slots (k : Client) (id : Nat) : (s.setPreviousId k id).slots = s.slots := rfl
@[simp] theorem State.setPreviousId_claims (k : Client) (id : Nat) : (s.setPreviousId k id).claims = s.claims := rfl
@[simp] theorem State.setPreviousId_store (k : Client) (id : Nat) : (s.setPreviousId k id).store = s.store := rfl
@[simp] theorem State.setPreviousId_gen (k : Client) (id : Nat) : (s.setPreviousId k id).gen = s.gen := rfl
@[simp] theorem State.setPreviousId_queues (k : Client) (id : Nat) : (s.setPreviousId k id).queues = s.queues := rfl
@[simp] theorem State.setPreviousId_buses (k : Client) (id : Nat) : (s.setPreviousId k id).buses = s.buses := rfl
@[simp] theorem State.setPreviousId_outputs (k : Client) (id : Nat) : (s.setPreviousId k id).outputs = s.outputs := rfl
@[simp] theorem State.setPreviousId_host (k : Client) (id : Nat) : (s.setPreviousId k id).host = s.host := rfl
@[simp] theorem State.setPreviousId_events (k : Client) (id : Nat) : (s.setPreviousId k id).events = s.events := rfl
@[simp] theorem State.setPreviousId_draws (k : Client) (id : Nat) : (s.setPreviousId k id).draws = s.draws := rfl
@[simp] theorem State.setPreviousId_pending (k : Client) (id : Nat) : (s.setPreviousId k id).pending = s.pending := rfl

/-! ### setStore -/

@[simp] theorem State.setStore_phase (l : List PendingRecord) : (s.setStore l).phase = s.phase := rfl
@[simp] theorem State.setStore_slots (l : List PendingRecord) : (s.setStore l).slots = s.slots := rfl
@[simp] theorem State.setStore_claims (l : List PendingRecord) : (s.setStore l).claims = s.claims := rfl
@[simp] theorem State.setStore_batches (l : List PendingRecord) : (s.setStore l).batches = s.batches := rfl
@[simp] theorem State.setStore_gen (l : List PendingRecord) : (s.setStore l).gen = s.gen := rfl
@[simp] theorem State.setStore_queues (l : List PendingRecord) : (s.setStore l).queues = s.queues := rfl
@[simp] theorem State.setStore_buses (l : List PendingRecord) : (s.setStore l).buses = s.buses := rfl
@[simp] theorem State.setStore_outputs (l : List PendingRecord) : (s.setStore l).outputs = s.outputs := rfl
@[simp] theorem State.setStore_host (l : List PendingRecord) : (s.setStore l).host = s.host := rfl
@[simp] theorem State.setStore_events (l : List PendingRecord) : (s.setStore l).events = s.events := rfl
@[simp] theorem State.setStore_draws (l : List PendingRecord) : (s.setStore l).draws = s.draws := rfl
@[simp] theorem State.setStore_pending (l : List PendingRecord) : (s.setStore l).pending = s.pending := rfl

/-! ### setGen -/

@[simp] theorem State.setGen_phase (g : Generator) : (s.setGen g).phase = s.phase := rfl
@[simp] theorem State.setGen_slots (g : Generator) : (s.setGen g).slots = s.slots := rfl
@[simp] theorem State.setGen_claims (g : Generator) : (s.setGen g).claims = s.claims := rfl
@[simp] theorem State.setGen_batches (g : Generator) : (s.setGen g).batches = s.batches := rfl
@[simp] theorem State.setGen_store (g : Generator) : (s.setGen g).store = s.store := rfl
@[simp] theorem State.setGen_queues (g : Generator) : (s.setGen g).queues = s.queues := rfl
@[simp] theorem State.setGen_buses (g : Generator) : (s.setGen g).buses = s.buses := rfl
@[simp] theorem State.setGen_outputs (g : Generator) : (s.setGen g).outputs = s.outputs := rfl
@[simp] theorem State.setGen_host (g : Generator) : (s.setGen g).host = s.host := rfl
@[simp] theorem State.setGen_events (g : Generator) : (s.setGen g).events = s.events := rfl
@[simp] theorem State.setGen_draws (g : Generator) : (s.setGen g).draws = s.draws := rfl
@[simp] theorem State.setGen_pending (g : Generator) : (s.setGen g).pending = s.pending := rfl

/-! ### setQueue -/

@[simp] theorem State.setQueue_phase (b : BusNo) (q : List Entry) : (s.setQueue b q).phase = s.phase := rfl
@[simp] theorem State.setQueue_slots (b : BusNo) (q : List Entry) : (s.setQueue b q).slots = s.slots := rfl
@[simp] theorem State.setQueue_claims (b : BusNo) (q : List Entry) : (s.setQueue b q).claims = s.claims := rfl
@[simp] theorem State.setQueue_batches (b : BusNo) (q : List Entry) : (s.setQueue b q).batches = s.batches := rfl
@[simp] theorem State.setQueue_store (b : BusNo) (q : List Entry) : (s.setQueue b q).store = s.store := rfl
@[simp] theorem State.setQueue_gen (b : BusNo) (q : List Entry) : (s.setQueue b q).gen = s.gen := rfl
@[simp] theorem State.setQueue_buses (b : BusNo) (q : List Entry) : (s.setQueue b q).buses = s.buses := rfl
@[simp] theorem State.setQueue_outputs (b : BusNo) (q : List Entry) : (s.setQueue b q).outputs = s.outputs := rfl
@[simp] theorem State.setQueue_host (b : BusNo) (q : List Entry) : (s.setQueue b q).host = s.host := rfl
@[simp] theorem State.setQueue_events (b : BusNo) (q : List Entry) : (s.setQueue b q).events = s.events := rfl
@[simp] theorem State.setQueue_draws (b : BusNo) (q : List Entry) : (s.setQueue b q).draws = s.draws := rfl
@[simp] theorem State.setQueue_pending (b : BusNo) (q : List Entry) : (s.setQueue b q).pending = s.pending := rfl

/-! ### setProbes -/

@[simp] theorem State.setProbes_phase (k : Client) (n : Nat) : (s.setProbes k n).phase = s.phase := rfl
@[simp] theorem State.setProbes_slots (k : Client) (n : Nat) : (s.setProbes k n).slots = s.slots := rfl
@[simp] theorem State.setProbes_claims (k : Client) (n : Nat) : (s.setProbes k n).claims = s.claims := rfl
@[simp] theorem State.setProbes_batches (k : Client) (n : Nat) : (s.setProbes k n).batches = s.batches := rfl
@[simp] theorem State.setProbes_store (k : Client) (n : Nat) : (s.setProbes k n).store = s.store := rfl
@[simp] theorem State.setProbes_gen (k : Client) (n : Nat) : (s.setProbes k n).gen = s.gen := rfl
@[simp] theorem State.setProbes_buses (k : Client) (n : Nat) : (s.setProbes k n).buses = s.buses := rfl
@[simp] theorem State.setProbes_outputs (k : Client) (n : Nat) : (s.setProbes k n).outputs = s.outputs := rfl
@[simp] theorem State.setProbes_host (k : Client) (n : Nat) : (s.setProbes k n).host = s.host := rfl
@[simp] theorem State.setProbes_events (k : Client) (n : Nat) : (s.setProbes k n).events = s.events := rfl
@[simp] theorem State.setProbes_draws (k : Client) (n : Nat) : (s.setProbes k n).draws = s.draws := rfl
@[simp] theorem State.setProbes_pending (k : Client) (n : Nat) : (s.setProbes k n).pending = s.pending := rfl

/-! ### setEngine -/

@[simp] theorem State.setEngine_phase (b : BusNo) (e : Engine) : (s.setEngine b e).phase = s.phase := rfl
@[simp] theorem State.setEngine_slots (b : BusNo) (e : Engine) : (s.setEngine b e).slots = s.slots := rfl
@[simp] theorem State.setEngine_claims (b : BusNo) (e : Engine) : (s.setEngine b e).claims = s.claims := rfl
@[simp] theorem State.setEngine_batches (b : BusNo) (e : Engine) : (s.setEngine b e).batches = s.batches := rfl
@[simp] theorem State.setEngine_store (b : BusNo) (e : Engine) : (s.setEngine b e).store = s.store := rfl
@[simp] theorem State.setEngine_gen (b : BusNo) (e : Engine) : (s.setEngine b e).gen = s.gen := rfl
@[simp] theorem State.setEngine_queues (b : BusNo) (e : Engine) : (s.setEngine b e).queues = s.queues := rfl
@[simp] theorem State.setEngine_outputs (b : BusNo) (e : Engine) : (s.setEngine b e).outputs = s.outputs := rfl
@[simp] theorem State.setEngine_host (b : BusNo) (e : Engine) : (s.setEngine b e).host = s.host := rfl
@[simp] theorem State.setEngine_events (b : BusNo) (e : Engine) : (s.setEngine b e).events = s.events := rfl
@[simp] theorem State.setEngine_draws (b : BusNo) (e : Engine) : (s.setEngine b e).draws = s.draws := rfl
@[simp] theorem State.setEngine_pending (b : BusNo) (e : Engine) : (s.setEngine b e).pending = s.pending := rfl

/-! ### setDevice -/

@[simp] theorem State.setDevice_phase (d : DeviceNo) (r : Device) : (s.setDevice d r).phase = s.phase := rfl
@[simp] theorem State.setDevice_slots (d : DeviceNo) (r : Device) : (s.setDevice d r).slots = s.slots := rfl
@[simp] theorem State.setDevice_claims (d : DeviceNo) (r : Device) : (s.setDevice d r).claims = s.claims := rfl
@[simp] theorem State.setDevice_batches (d : DeviceNo) (r : Device) : (s.setDevice d r).batches = s.batches := rfl
@[simp] theorem State.setDevice_store (d : DeviceNo) (r : Device) : (s.setDevice d r).store = s.store := rfl
@[simp] theorem State.setDevice_gen (d : DeviceNo) (r : Device) : (s.setDevice d r).gen = s.gen := rfl
@[simp] theorem State.setDevice_queues (d : DeviceNo) (r : Device) : (s.setDevice d r).queues = s.queues := rfl
@[simp] theorem State.setDevice_outputs (d : DeviceNo) (r : Device) : (s.setDevice d r).outputs = s.outputs := rfl
@[simp] theorem State.setDevice_host (d : DeviceNo) (r : Device) : (s.setDevice d r).host = s.host := rfl
@[simp] theorem State.setDevice_events (d : DeviceNo) (r : Device) : (s.setDevice d r).events = s.events := rfl
@[simp] theorem State.setDevice_draws (d : DeviceNo) (r : Device) : (s.setDevice d r).draws = s.draws := rfl
@[simp] theorem State.setDevice_pending (d : DeviceNo) (r : Device) : (s.setDevice d r).pending = s.pending := rfl

/-! ### setPort -/

@[simp] theorem State.setPort_phase (k : Client) (p : Port) : (s.setPort k p).phase = s.phase := rfl
@[simp] theorem State.setPort_slots (k : Client) (p : Port) : (s.setPort k p).slots = s.slots := rfl
@[simp] theorem State.setPort_claims (k : Client) (p : Port) : (s.setPort k p).claims = s.claims := rfl
@[simp] theorem State.setPort_batches (k : Client) (p : Port) : (s.setPort k p).batches = s.batches := rfl
@[simp] theorem State.setPort_store (k : Client) (p : Port) : (s.setPort k p).store = s.store := rfl
@[simp] theorem State.setPort_gen (k : Client) (p : Port) : (s.setPort k p).gen = s.gen := rfl
@[simp] theorem State.setPort_queues (k : Client) (p : Port) : (s.setPort k p).queues = s.queues := rfl
@[simp] theorem State.setPort_buses (k : Client) (p : Port) : (s.setPort k p).buses = s.buses := rfl
@[simp] theorem State.setPort_outputs (k : Client) (p : Port) : (s.setPort k p).outputs = s.outputs := rfl
@[simp] theorem State.setPort_events (k : Client) (p : Port) : (s.setPort k p).events = s.events := rfl
@[simp] theorem State.setPort_draws (k : Client) (p : Port) : (s.setPort k p).draws = s.draws := rfl
@[simp] theorem State.setPort_pending (k : Client) (p : Port) : (s.setPort k p).pending = s.pending := rfl

/-! ### setEventQueue -/

@[simp] theorem State.setEventQueue_phase (k : Client) (q : EventQueue) : (s.setEventQueue k q).phase = s.phase := rfl
@[simp] theorem State.setEventQueue_slots (k : Client) (q : EventQueue) : (s.setEventQueue k q).slots = s.slots := rfl
@[simp] theorem State.setEventQueue_claims (k : Client) (q : EventQueue) : (s.setEventQueue k q).claims = s.claims := rfl
@[simp] theorem State.setEventQueue_batches (k : Client) (q : EventQueue) : (s.setEventQueue k q).batches = s.batches := rfl
@[simp] theorem State.setEventQueue_store (k : Client) (q : EventQueue) : (s.setEventQueue k q).store = s.store := rfl
@[simp] theorem State.setEventQueue_gen (k : Client) (q : EventQueue) : (s.setEventQueue k q).gen = s.gen := rfl
@[simp] theorem State.setEventQueue_queues (k : Client) (q : EventQueue) : (s.setEventQueue k q).queues = s.queues := rfl
@[simp] theorem State.setEventQueue_buses (k : Client) (q : EventQueue) : (s.setEventQueue k q).buses = s.buses := rfl
@[simp] theorem State.setEventQueue_outputs (k : Client) (q : EventQueue) : (s.setEventQueue k q).outputs = s.outputs := rfl
@[simp] theorem State.setEventQueue_host (k : Client) (q : EventQueue) : (s.setEventQueue k q).host = s.host := rfl
@[simp] theorem State.setEventQueue_draws (k : Client) (q : EventQueue) : (s.setEventQueue k q).draws = s.draws := rfl
@[simp] theorem State.setEventQueue_pending (k : Client) (q : EventQueue) : (s.setEventQueue k q).pending = s.pending := rfl

/-! ### draw -/

@[simp] theorem State.draw_phase : s.draw.phase = s.phase := rfl
@[simp] theorem State.draw_slots : s.draw.slots = s.slots := rfl
@[simp] theorem State.draw_claims : s.draw.claims = s.claims := rfl
@[simp] theorem State.draw_batches : s.draw.batches = s.batches := rfl
@[simp] theorem State.draw_store : s.draw.store = s.store := rfl
@[simp] theorem State.draw_gen : s.draw.gen = s.gen := rfl
@[simp] theorem State.draw_queues : s.draw.queues = s.queues := rfl
@[simp] theorem State.draw_buses : s.draw.buses = s.buses := rfl
@[simp] theorem State.draw_outputs : s.draw.outputs = s.outputs := rfl
@[simp] theorem State.draw_host : s.draw.host = s.host := rfl
@[simp] theorem State.draw_events : s.draw.events = s.events := rfl
@[simp] theorem State.draw_pending : s.draw.pending = s.pending := rfl

/-! ### Readers after updates of their own table -/

@[simp] theorem State.setGen_gen (g : Generator) : (s.setGen g).gen = g := rfl
@[simp] theorem State.setStore_store (l : List PendingRecord) : (s.setStore l).store = l := rfl
@[simp] theorem State.draw_draws : s.draw.draws = s.draws + 1 := rfl
@[simp] theorem State.setToken_token (o : Option Client) : (s.setToken o).claims.token = o := rfl
@[simp] theorem State.setToken_owner (o : Option Client) (i : SlotNo) :
    (s.setToken o).owner i = s.owner i := rfl
@[simp] theorem State.setToken_lease (o : Option Client) (k : Client) :
    (s.setToken o).lease k = s.lease k := rfl
@[simp] theorem State.setOwner_token (i : SlotNo) (o : Option Client) :
    (s.setOwner i o).claims.token = s.claims.token := rfl
@[simp] theorem State.setOwner_lease (i : SlotNo) (o : Option Client) (k : Client) :
    (s.setOwner i o).lease k = s.lease k := rfl
@[simp] theorem State.setLease_token (k : Client) (l : Lease) :
    (s.setLease k l).claims.token = s.claims.token := rfl
@[simp] theorem State.setLease_owner (k : Client) (l : Lease) (i : SlotNo) :
    (s.setLease k l).owner i = s.owner i := rfl
@[simp] theorem State.setSealList_sealList (l : List BatchRef) :
    (s.setSealList l).batches.sealList = l := rfl
@[simp] theorem State.setSealList_context (l : List BatchRef) (k : Client) (n : Fin 4) :
    (s.setSealList l).context k n = s.context k n := rfl
@[simp] theorem State.setSealList_previousId (l : List BatchRef) (k : Client) :
    (s.setSealList l).previousId k = s.previousId k := rfl
@[simp] theorem State.setContext_sealList (k : Client) (n : Fin 4) (b : Batch) :
    (s.setContext k n b).batches.sealList = s.batches.sealList := rfl
@[simp] theorem State.setContext_previousId (k : Client) (n : Fin 4) (b : Batch) (j : Client) :
    (s.setContext k n b).previousId j = s.previousId j := rfl
@[simp] theorem State.setPreviousId_sealList (k : Client) (id : Nat) :
    (s.setPreviousId k id).batches.sealList = s.batches.sealList := rfl
@[simp] theorem State.setPreviousId_context (k : Client) (id : Nat) (j : Client) (n : Fin 4) :
    (s.setPreviousId k id).context j n = s.context j n := rfl
@[simp] theorem State.setQueue_probes (b : BusNo) (q : List Entry) (k : Client) :
    (s.setQueue b q).probes k = s.probes k := rfl
@[simp] theorem State.setProbes_queue (k : Client) (n : Nat) (b : BusNo) :
    (s.setProbes k n).queue b = s.queue b := rfl
@[simp] theorem State.setEngine_device (b : BusNo) (e : Engine) (d : DeviceNo) :
    (s.setEngine b e).device d = s.device d := rfl
@[simp] theorem State.setDevice_engine (d : DeviceNo) (r : Device) (b : BusNo) :
    (s.setDevice d r).engine b = s.engine b := rfl
@[simp] theorem State.setPort_inService (k : Client) (p : Port) :
    (s.setPort k p).host.inService = s.host.inService := rfl
@[simp] theorem State.setPort_pointer (k : Client) (p : Port) :
    (s.setPort k p).host.pointer = s.host.pointer := rfl

theorem State.setSlot_slot (i : SlotNo) (r : Slot) (j : SlotNo) :
    (s.setSlot i r).slot j = if i = j then r else s.slot j := put_get _ _ _ _

theorem State.setOwner_owner (i : SlotNo) (o : Option Client) (j : SlotNo) :
    (s.setOwner i o).owner j = if i = j then o else s.owner j := put_get _ _ _ _

theorem State.setLease_lease (k : Client) (l : Lease) (j : Client) :
    (s.setLease k l).lease j = if k = j then l else s.lease j := put_get _ _ _ _

theorem State.setPreviousId_previousId (k : Client) (id : Nat) (j : Client) :
    (s.setPreviousId k id).previousId j = if k = j then id else s.previousId j := put_get _ _ _ _

theorem State.setQueue_queue (b : BusNo) (q : List Entry) (c : BusNo) :
    (s.setQueue b q).queue c = if b = c then q else s.queue c := put_get _ _ _ _

theorem State.setProbes_probes (k : Client) (n : Nat) (j : Client) :
    (s.setProbes k n).probes j = if k = j then n else s.probes j := put_get _ _ _ _

theorem State.setEngine_engine (b : BusNo) (e : Engine) (c : BusNo) :
    (s.setEngine b e).engine c = if b = c then e else s.engine c := put_get _ _ _ _

theorem State.setDevice_device (d : DeviceNo) (r : Device) (e : DeviceNo) :
    (s.setDevice d r).device e = if d = e then r else s.device e := put_get _ _ _ _

theorem State.setPort_port (k : Client) (p : Port) (j : Client) :
    (s.setPort k p).port j = if k = j then p else s.port j := put_get _ _ _ _

theorem State.setEventQueue_eventQueue (k : Client) (q : EventQueue) (j : Client) :
    (s.setEventQueue k q).eventQueue j = if k = j then q else s.eventQueue j := put_get _ _ _ _

theorem State.setContext_context (k : Client) (n : Fin 4) (b : Batch) (j : Client) (m : Fin 4) :
    (s.setContext k n b).context j m = if k = j ∧ n = m then b else s.context j m := by
  unfold State.setContext State.context
  simp only [put_get]
  by_cases h : k = j
  · subst h; simp [put_get]
  · simp [h]

/-! ### Two writes to one place, and a write of what is there -/

theorem put_put {α : Type} {n : Nat} (v : Vector α n) (k : Fin n) (x y : α) :
    put (put v k x) k y = put v k y := by
  simp [put]

theorem put_self {α : Type} {n : Nat} (v : Vector α n) (k : Fin n) : put v k v[k.val] = v := by
  simp [put]

@[simp] theorem State.setQueue_setQueue (b : BusNo) (p q : List Entry) :
    (s.setQueue b p).setQueue b q = s.setQueue b q := by
  simp [State.setQueue, put_put]

@[simp] theorem State.setPort_setPort (k : Client) (p q : Port) :
    (s.setPort k p).setPort k q = s.setPort k q := by
  simp [State.setPort, put_put]

@[simp] theorem State.setEventQueue_setEventQueue (k : Client) (p q : EventQueue) :
    (s.setEventQueue k p).setEventQueue k q = s.setEventQueue k q := by
  simp [State.setEventQueue, put_put]

@[simp] theorem State.setEngine_setEngine (b : BusNo) (p q : Engine) :
    (s.setEngine b p).setEngine b q = s.setEngine b q := by
  simp [State.setEngine, put_put]

@[simp] theorem State.setGen_setGen (g h : Generator) : (s.setGen g).setGen h = s.setGen h := rfl

end Sys2Proof.Machine
end

