-- ==== Sys2Proof/Laws/Frames.lean ====
section
/-! SUPPORT. What each shared operation leaves alone: one lemma for each part of the state that it does
not touch. -/

set_option Elab.async false

namespace Sys2Proof.Machine

open Sys2Proof

@[simp] theorem Work.update_st (w : Work) (f : State → State) : (w.update f).st = f w.st := rfl
@[simp] theorem Work.update_out (w : Work) (f : State → State) : (w.update f).out = w.out := rfl
@[simp] theorem begin_st (s : State) : (begin s).st = s := rfl
@[simp] theorem begin_out (s : State) : (begin s).out = [] := rfl

/-- A fold over an operation that leaves a part of the state alone leaves it alone. -/
theorem foldl_same {α β : Type} (f : State → α → State) (part : State → β)
    (h : ∀ s x, part (f s x) = part s) (l : List α) (s : State) :
    part (l.foldl f s) = part s := by
  induction l generalizing s with
  | nil => rfl
  | cons x l ih => rw [List.foldl_cons, ih, h]

/-- The same for an operation on the work of an event. -/
theorem foldl_work_same {α β : Type} (f : Work → α → Work) (part : State → β)
    (h : ∀ w x, part (f w x).st = part w.st) (l : List α) (w : Work) :
    part (l.foldl f w).st = part w.st := by
  induction l generalizing w with
  | nil => rfl
  | cons x l ih => rw [List.foldl_cons, ih, h]

/-- Offering a record changes no state. -/
@[simp] theorem offerTo_st (k : Client) (e : Event) (w : Work) : (offerTo k e w).st = w.st := rfl

/-- Offering a record to several clients changes no state. -/
@[simp] theorem offerWhere_st (p : Client → EventQueue → Bool) (e : Event) (w : Work) :
    (offerWhere p e w).st = w.st :=
  foldl_work_same (fun w k => offerTo k e w) id (fun _ _ => rfl) _ w

/-- A report changes no state. -/
@[simp] theorem reportSchedule_st (r : Reason) (k : Option Client) (w : Work) :
    (reportSchedule r k w).st = w.st := by simp [reportSchedule]

/-- A bus report changes no state. -/
@[simp] theorem reportBus_st (b : BusNo) (f : Bool) (k : Option Client) (w : Work) :
    (reportBus b f k w).st = w.st := by simp [reportBus]

/-! ### Offers and their delivery -/

@[simp] theorem deliverOne_phase (s : State) (o : Offer) :
    (deliverOne s o).phase = s.phase := rfl
@[simp] theorem deliverOne_slots (s : State) (o : Offer) :
    (deliverOne s o).slots = s.slots := rfl
@[simp] theorem deliverOne_claims (s : State) (o : Offer) :
    (deliverOne s o).claims = s.claims := rfl
@[simp] theorem deliverOne_batches (s : State) (o : Offer) :
    (deliverOne s o).batches = s.batches := rfl
@[simp] theorem deliverOne_store (s : State) (o : Offer) :
    (deliverOne s o).store = s.store := rfl
@[simp] theorem deliverOne_gen (s : State) (o : Offer) :
    (deliverOne s o).gen = s.gen := rfl
@[simp] theorem deliverOne_queues (s : State) (o : Offer) :
    (deliverOne s o).queues = s.queues := rfl
@[simp] theorem deliverOne_buses (s : State) (o : Offer) :
    (deliverOne s o).buses = s.buses := rfl
@[simp] theorem deliverOne_outputs (s : State) (o : Offer) :
    (deliverOne s o).outputs = s.outputs := rfl
@[simp] theorem deliverOne_host (s : State) (o : Offer) :
    (deliverOne s o).host = s.host := rfl
@[simp] theorem deliverOne_draws (s : State) (o : Offer) :
    (deliverOne s o).draws = s.draws := rfl
@[simp] theorem deliverOne_pending (s : State) (o : Offer) :
    (deliverOne s o).pending = s.pending := rfl

@[simp] theorem deliver_phase (s : State) (out : List Offer) :
    (deliver s out).phase = s.phase := foldl_same deliverOne State.phase (fun _ _ => rfl) out s
@[simp] theorem deliver_slots (s : State) (out : List Offer) :
    (deliver s out).slots = s.slots := foldl_same deliverOne State.slots (fun _ _ => rfl) out s
@[simp] theorem deliver_claims (s : State) (out : List Offer) :
    (deliver s out).claims = s.claims := foldl_same deliverOne State.claims (fun _ _ => rfl) out s
@[simp] theorem deliver_batches (s : State) (out : List Offer) :
    (deliver s out).batches = s.batches := foldl_same deliverOne State.batches (fun _ _ => rfl) out s
@[simp] theorem deliver_store (s : State) (out : List Offer) :
    (deliver s out).store = s.store := foldl_same deliverOne State.store (fun _ _ => rfl) out s
@[simp] theorem deliver_gen (s : State) (out : List Offer) :
    (deliver s out).gen = s.gen := foldl_same deliverOne State.gen (fun _ _ => rfl) out s
@[simp] theorem deliver_queues (s : State) (out : List Offer) :
    (deliver s out).queues = s.queues := foldl_same deliverOne State.queues (fun _ _ => rfl) out s
@[simp] theorem deliver_buses (s : State) (out : List Offer) :
    (deliver s out).buses = s.buses := foldl_same deliverOne State.buses (fun _ _ => rfl) out s
@[simp] theorem deliver_outputs (s : State) (out : List Offer) :
    (deliver s out).outputs = s.outputs := foldl_same deliverOne State.outputs (fun _ _ => rfl) out s
@[simp] theorem deliver_host (s : State) (out : List Offer) :
    (deliver s out).host = s.host := foldl_same deliverOne State.host (fun _ _ => rfl) out s
@[simp] theorem deliver_draws (s : State) (out : List Offer) :
    (deliver s out).draws = s.draws := foldl_same deliverOne State.draws (fun _ _ => rfl) out s
@[simp] theorem deliver_pending (s : State) (out : List Offer) :
    (deliver s out).pending = s.pending := foldl_same deliverOne State.pending (fun _ _ => rfl) out s

@[simp] theorem finish_phase (w : Work) :
    (w.finish).phase = w.st.phase := by simp [Work.finish]
@[simp] theorem finish_slots (w : Work) :
    (w.finish).slots = w.st.slots := by simp [Work.finish]
@[simp] theorem finish_claims (w : Work) :
    (w.finish).claims = w.st.claims := by simp [Work.finish]
@[simp] theorem finish_batches (w : Work) :
    (w.finish).batches = w.st.batches := by simp [Work.finish]
@[simp] theorem finish_store (w : Work) :
    (w.finish).store = w.st.store := by simp [Work.finish]
@[simp] theorem finish_gen (w : Work) :
    (w.finish).gen = w.st.gen := by simp [Work.finish]
@[simp] theorem finish_queues (w : Work) :
    (w.finish).queues = w.st.queues := by simp [Work.finish]
@[simp] theorem finish_buses (w : Work) :
    (w.finish).buses = w.st.buses := by simp [Work.finish]
@[simp] theorem finish_outputs (w : Work) :
    (w.finish).outputs = w.st.outputs := by simp [Work.finish]
@[simp] theorem finish_host (w : Work) :
    (w.finish).host = w.st.host := by simp [Work.finish]
@[simp] theorem finish_draws (w : Work) :
    (w.finish).draws = w.st.draws := by simp [Work.finish]
@[simp] theorem finish_pending (w : Work) :
    (w.finish).pending = w.st.pending := by simp [Work.finish]

/-! ### Ports, leases and the arbiter -/

@[simp] theorem reloadLease_phase (k : Client) (s : State) :
    (reloadLease k s).phase = s.phase := rfl
@[simp] theorem reloadLease_slots (k : Client) (s : State) :
    (reloadLease k s).slots = s.slots := rfl
@[simp] theorem reloadLease_batches (k : Client) (s : State) :
    (reloadLease k s).batches = s.batches := rfl
@[simp] theorem reloadLease_store (k : Client) (s : State) :
    (reloadLease k s).store = s.store := rfl
@[simp] theorem reloadLease_gen (k : Client) (s : State) :
    (reloadLease k s).gen = s.gen := rfl
@[simp] theorem reloadLease_queues (k : Client) (s : State) :
    (reloadLease k s).queues = s.queues := rfl
@[simp] theorem reloadLease_buses (k : Client) (s : State) :
    (reloadLease k s).buses = s.buses := rfl
@[simp] theorem reloadLease_outputs (k : Client) (s : State) :
    (reloadLease k s).outputs = s.outputs := rfl
@[simp] theorem reloadLease_host (k : Client) (s : State) :
    (reloadLease k s).host = s.host := rfl
@[simp] theorem reloadLease_events (k : Client) (s : State) :
    (reloadLease k s).events = s.events := rfl
@[simp] theorem reloadLease_draws (k : Client) (s : State) :
    (reloadLease k s).draws = s.draws := rfl
@[simp] theorem reloadLease_pending (k : Client) (s : State) :
    (reloadLease k s).pending = s.pending := rfl

@[simp] theorem grantNext_phase (s : State) :
    (grantNext s).phase = s.phase := by unfold grantNext; split <;> rfl
@[simp] theorem grantNext_slots (s : State) :
    (grantNext s).slots = s.slots := by unfold grantNext; split <;> rfl
@[simp] theorem grantNext_claims (s : State) :
    (grantNext s).claims = s.claims := by unfold grantNext; split <;> rfl
@[simp] theorem grantNext_batches (s : State) :
    (grantNext s).batches = s.batches := by unfold grantNext; split <;> rfl
@[simp] theorem grantNext_store (s : State) :
    (grantNext s).store = s.store := by unfold grantNext; split <;> rfl
@[simp] theorem grantNext_gen (s : State) :
    (grantNext s).gen = s.gen := by unfold grantNext; split <;> rfl
@[simp] theorem grantNext_queues (s : State) :
    (grantNext s).queues = s.queues := by unfold grantNext; split <;> rfl
@[simp] theorem grantNext_buses (s : State) :
    (grantNext s).buses = s.buses := by unfold grantNext; split <;> rfl
@[simp] theorem grantNext_outputs (s : State) :
    (grantNext s).outputs = s.outputs := by unfold grantNext; split <;> rfl
@[simp] theorem grantNext_events (s : State) :
    (grantNext s).events = s.events := by unfold grantNext; split <;> rfl
@[simp] theorem grantNext_draws (s : State) :
    (grantNext s).draws = s.draws := by unfold grantNext; split <;> rfl
@[simp] theorem grantNext_pending (s : State) :
    (grantNext s).pending = s.pending := by unfold grantNext; split <;> rfl

@[simp] theorem takeMessage_phase (k : Client) (bytes : List Byte) (later : Bool) (s : State) :
    (takeMessage k bytes later s).phase = s.phase := by
  unfold takeMessage; dsimp only; split
  · rfl
  · rfl
  · split <;> simp
@[simp] theorem takeMessage_slots (k : Client) (bytes : List Byte) (later : Bool) (s : State) :
    (takeMessage k bytes later s).slots = s.slots := by
  unfold takeMessage; dsimp only; split
  · rfl
  · rfl
  · split <;> simp
@[simp] theorem takeMessage_claims (k : Client) (bytes : List Byte) (later : Bool) (s : State) :
    (takeMessage k bytes later s).claims = s.claims := by
  unfold takeMessage; dsimp only; split
  · rfl
  · rfl
  · split <;> simp
@[simp] theorem takeMessage_batches (k : Client) (bytes : List Byte) (later : Bool) (s : State) :
    (takeMessage k bytes later s).batches = s.batches := by
  unfold takeMessage; dsimp only; split
  · rfl
  · rfl
  · split <;> simp
@[simp] theorem takeMessage_store (k : Client) (bytes : List Byte) (later : Bool) (s : State) :
    (takeMessage k bytes later s).store = s.store := by
  unfold takeMessage; dsimp only; split
  · rfl
  · rfl
  · split <;> simp
@[simp] theorem takeMessage_gen (k : Client) (bytes : List Byte) (later : Bool) (s : State) :
    (takeMessage k bytes later s).gen = s.gen := by
  unfold takeMessage; dsimp only; split
  · rfl
  · rfl
  · split <;> simp
@[simp] theorem takeMessage_queues (k : Client) (bytes : List Byte) (later : Bool) (s : State) :
    (takeMessage k bytes later s).queues = s.queues := by
  unfold takeMessage; dsimp only; split
  · rfl
  · rfl
  · split <;> simp
@[simp] theorem takeMessage_buses (k : Client) (bytes : List Byte) (later : Bool) (s : State) :
    (takeMessage k bytes later s).buses = s.buses := by
  unfold takeMessage; dsimp only; split
  · rfl
  · rfl
  · split <;> simp
@[simp] theorem takeMessage_outputs (k : Client) (bytes : List Byte) (later : Bool) (s : State) :
    (takeMessage k bytes later s).outputs = s.outputs := by
  unfold takeMessage; dsimp only; split
  · rfl
  · rfl
  · split <;> simp
@[simp] theorem takeMessage_events (k : Client) (bytes : List Byte) (later : Bool) (s : State) :
    (takeMessage k bytes later s).events = s.events := by
  unfold takeMessage; dsimp only; split
  · rfl
  · rfl
  · split <;> simp
@[simp] theorem takeMessage_draws (k : Client) (bytes : List Byte) (later : Bool) (s : State) :
    (takeMessage k bytes later s).draws = s.draws := by
  unfold takeMessage; dsimp only; split
  · rfl
  · rfl
  · split <;> simp
@[simp] theorem takeMessage_pending (k : Client) (bytes : List Byte) (later : Bool) (s : State) :
    (takeMessage k bytes later s).pending = s.pending := by
  unfold takeMessage; dsimp only; split
  · rfl
  · rfl
  · split <;> simp

@[simp] theorem endMessage_phase (k : Client) (bytes : List Byte) (taken later : Bool) (s : State) :
    (endMessage k bytes taken later s).phase = s.phase := by unfold endMessage; split <;> simp
@[simp] theorem endMessage_slots (k : Client) (bytes : List Byte) (taken later : Bool) (s : State) :
    (endMessage k bytes taken later s).slots = s.slots := by unfold endMessage; split <;> simp
@[simp] theorem endMessage_batches (k : Client) (bytes : List Byte) (taken later : Bool) (s : State) :
    (endMessage k bytes taken later s).batches = s.batches := by unfold endMessage; split <;> simp
@[simp] theorem endMessage_store (k : Client) (bytes : List Byte) (taken later : Bool) (s : State) :
    (endMessage k bytes taken later s).store = s.store := by unfold endMessage; split <;> simp
@[simp] theorem endMessage_gen (k : Client) (bytes : List Byte) (taken later : Bool) (s : State) :
    (endMessage k bytes taken later s).gen = s.gen := by unfold endMessage; split <;> simp
@[simp] theorem endMessage_queues (k : Client) (bytes : List Byte) (taken later : Bool) (s : State) :
    (endMessage k bytes taken later s).queues = s.queues := by unfold endMessage; split <;> simp
@[simp] theorem endMessage_buses (k : Client) (bytes : List Byte) (taken later : Bool) (s : State) :
    (endMessage k bytes taken later s).buses = s.buses := by unfold endMessage; split <;> simp
@[simp] theorem endMessage_outputs (k : Client) (bytes : List Byte) (taken later : Bool) (s : State) :
    (endMessage k bytes taken later s).outputs = s.outputs := by unfold endMessage; split <;> simp
@[simp] theorem endMessage_events (k : Client) (bytes : List Byte) (taken later : Bool) (s : State) :
    (endMessage k bytes taken later s).events = s.events := by unfold endMessage; split <;> simp
@[simp] theorem endMessage_draws (k : Client) (bytes : List Byte) (taken later : Bool) (s : State) :
    (endMessage k bytes taken later s).draws = s.draws := by unfold endMessage; split <;> simp
@[simp] theorem endMessage_pending (k : Client) (bytes : List Byte) (taken later : Bool) (s : State) :
    (endMessage k bytes taken later s).pending = s.pending := by unfold endMessage; split <;> simp

@[simp] theorem messageEnds_phase (k : Client) (via : Carrier) (bytes : List Byte) (later : Bool) (s : State) :
    (messageEnds k via bytes later s).phase = s.phase := by
  unfold messageEnds; dsimp only; split
  · rfl
  · split
    · rfl
    · split <;> simp
    · simp
@[simp] theorem messageEnds_slots (k : Client) (via : Carrier) (bytes : List Byte) (later : Bool) (s : State) :
    (messageEnds k via bytes later s).slots = s.slots := by
  unfold messageEnds; dsimp only; split
  · rfl
  · split
    · rfl
    · split <;> simp
    · simp
@[simp] theorem messageEnds_batches (k : Client) (via : Carrier) (bytes : List Byte) (later : Bool) (s : State) :
    (messageEnds k via bytes later s).batches = s.batches := by
  unfold messageEnds; dsimp only; split
  · rfl
  · split
    · rfl
    · split <;> simp
    · simp
@[simp] theorem messageEnds_store (k : Client) (via : Carrier) (bytes : List Byte) (later : Bool) (s : State) :
    (messageEnds k via bytes later s).store = s.store := by
  unfold messageEnds; dsimp only; split
  · rfl
  · split
    · rfl
    · split <;> simp
    · simp
@[simp] theorem messageEnds_gen (k : Client) (via : Carrier) (bytes : List Byte) (later : Bool) (s : State) :
    (messageEnds k via bytes later s).gen = s.gen := by
  unfold messageEnds; dsimp only; split
  · rfl
  · split
    · rfl
    · split <;> simp
    · simp
@[simp] theorem messageEnds_queues (k : Client) (via : Carrier) (bytes : List Byte) (later : Bool) (s : State) :
    (messageEnds k via bytes later s).queues = s.queues := by
  unfold messageEnds; dsimp only; split
  · rfl
  · split
    · rfl
    · split <;> simp
    · simp
@[simp] theorem messageEnds_buses (k : Client) (via : Carrier) (bytes : List Byte) (later : Bool) (s : State) :
    (messageEnds k via bytes later s).buses = s.buses := by
  unfold messageEnds; dsimp only; split
  · rfl
  · split
    · rfl
    · split <;> simp
    · simp
@[simp] theorem messageEnds_outputs (k : Client) (via : Carrier) (bytes : List Byte) (later : Bool) (s : State) :
    (messageEnds k via bytes later s).outputs = s.outputs := by
  unfold messageEnds; dsimp only; split
  · rfl
  · split
    · rfl
    · split <;> simp
    · simp
@[simp] theorem messageEnds_events (k : Client) (via : Carrier) (bytes : List Byte) (later : Bool) (s : State) :
    (messageEnds k via bytes later s).events = s.events := by
  unfold messageEnds; dsimp only; split
  · rfl
  · split
    · rfl
    · split <;> simp
    · simp
@[simp] theorem messageEnds_draws (k : Client) (via : Carrier) (bytes : List Byte) (later : Bool) (s : State) :
    (messageEnds k via bytes later s).draws = s.draws := by
  unfold messageEnds; dsimp only; split
  · rfl
  · split
    · rfl
    · split <;> simp
    · simp
@[simp] theorem messageEnds_pending (k : Client) (via : Carrier) (bytes : List Byte) (later : Bool) (s : State) :
    (messageEnds k via bytes later s).pending = s.pending := by
  unfold messageEnds; dsimp only; split
  · rfl
  · split
    · rfl
    · split <;> simp
    · simp

@[simp] theorem endService_phase (k : Client) (tag code : Byte) (reply : Reply) (s : State) :
    (endService k tag code reply s).phase = s.phase := by simp [endService]
@[simp] theorem endService_slots (k : Client) (tag code : Byte) (reply : Reply) (s : State) :
    (endService k tag code reply s).slots = s.slots := by simp [endService]
@[simp] theorem endService_claims (k : Client) (tag code : Byte) (reply : Reply) (s : State) :
    (endService k tag code reply s).claims = s.claims := by simp [endService]
@[simp] theorem endService_batches (k : Client) (tag code : Byte) (reply : Reply) (s : State) :
    (endService k tag code reply s).batches = s.batches := by simp [endService]
@[simp] theorem endService_store (k : Client) (tag code : Byte) (reply : Reply) (s : State) :
    (endService k tag code reply s).store = s.store := by simp [endService]
@[simp] theorem endService_gen (k : Client) (tag code : Byte) (reply : Reply) (s : State) :
    (endService k tag code reply s).gen = s.gen := by simp [endService]
@[simp] theorem endService_queues (k : Client) (tag code : Byte) (reply : Reply) (s : State) :
    (endService k tag code reply s).queues = s.queues := by simp [endService]
@[simp] theorem endService_buses (k : Client) (tag code : Byte) (reply : Reply) (s : State) :
    (endService k tag code reply s).buses = s.buses := by simp [endService]
@[simp] theorem endService_outputs (k : Client) (tag code : Byte) (reply : Reply) (s : State) :
    (endService k tag code reply s).outputs = s.outputs := by simp [endService]
@[simp] theorem endService_events (k : Client) (tag code : Byte) (reply : Reply) (s : State) :
    (endService k tag code reply s).events = s.events := by simp [endService]
@[simp] theorem endService_draws (k : Client) (tag code : Byte) (reply : Reply) (s : State) :
    (endService k tag code reply s).draws = s.draws := by simp [endService]
@[simp] theorem endService_pending (k : Client) (tag code : Byte) (reply : Reply) (s : State) :
    (endService k tag code reply s).pending = s.pending := by simp [endService]

@[simp] theorem arrive_phase (k : Client) (i : Instr) (s : State) :
    (arrive k i s).phase = s.phase := by
  unfold arrive; split
  · rfl
  · split
    · simp
    · split <;> simp
@[simp] theorem arrive_slots (k : Client) (i : Instr) (s : State) :
    (arrive k i s).slots = s.slots := by
  unfold arrive; split
  · rfl
  · split
    · simp
    · split <;> simp
@[simp] theorem arrive_batches (k : Client) (i : Instr) (s : State) :
    (arrive k i s).batches = s.batches := by
  unfold arrive; split
  · rfl
  · split
    · simp
    · split <;> simp
@[simp] theorem arrive_store (k : Client) (i : Instr) (s : State) :
    (arrive k i s).store = s.store := by
  unfold arrive; split
  · rfl
  · split
    · simp
    · split <;> simp
@[simp] theorem arrive_gen (k : Client) (i : Instr) (s : State) :
    (arrive k i s).gen = s.gen := by
  unfold arrive; split
  · rfl
  · split
    · simp
    · split <;> simp
@[simp] theorem arrive_queues (k : Client) (i : Instr) (s : State) :
    (arrive k i s).queues = s.queues := by
  unfold arrive; split
  · rfl
  · split
    · simp
    · split <;> simp
@[simp] theorem arrive_buses (k : Client) (i : Instr) (s : State) :
    (arrive k i s).buses = s.buses := by
  unfold arrive; split
  · rfl
  · split
    · simp
    · split <;> simp
@[simp] theorem arrive_outputs (k : Client) (i : Instr) (s : State) :
    (arrive k i s).outputs = s.outputs := by
  unfold arrive; split
  · rfl
  · split
    · simp
    · split <;> simp
@[simp] theorem arrive_events (k : Client) (i : Instr) (s : State) :
    (arrive k i s).events = s.events := by
  unfold arrive; split
  · rfl
  · split
    · simp
    · split <;> simp
@[simp] theorem arrive_draws (k : Client) (i : Instr) (s : State) :
    (arrive k i s).draws = s.draws := by
  unfold arrive; split
  · rfl
  · split
    · simp
    · split <;> simp
@[simp] theorem arrive_pending (k : Client) (i : Instr) (s : State) :
    (arrive k i s).pending = s.pending := by
  unfold arrive; split
  · rfl
  · split
    · simp
    · split <;> simp

/-! ### Batches and the store -/

@[simp] theorem completeBatch_phase (r : BatchRef) (n : Fin 4) (b : Batch) (o : BatchOutcome) (w : Work) :
    (completeBatch r n b o w).st.phase = w.st.phase := rfl
@[simp] theorem completeBatch_slots (r : BatchRef) (n : Fin 4) (b : Batch) (o : BatchOutcome) (w : Work) :
    (completeBatch r n b o w).st.slots = w.st.slots := rfl
@[simp] theorem completeBatch_claims (r : BatchRef) (n : Fin 4) (b : Batch) (o : BatchOutcome) (w : Work) :
    (completeBatch r n b o w).st.claims = w.st.claims := rfl
@[simp] theorem completeBatch_store (r : BatchRef) (n : Fin 4) (b : Batch) (o : BatchOutcome) (w : Work) :
    (completeBatch r n b o w).st.store = w.st.store := rfl
@[simp] theorem completeBatch_gen (r : BatchRef) (n : Fin 4) (b : Batch) (o : BatchOutcome) (w : Work) :
    (completeBatch r n b o w).st.gen = w.st.gen := rfl
@[simp] theorem completeBatch_queues (r : BatchRef) (n : Fin 4) (b : Batch) (o : BatchOutcome) (w : Work) :
    (completeBatch r n b o w).st.queues = w.st.queues := rfl
@[simp] theorem completeBatch_buses (r : BatchRef) (n : Fin 4) (b : Batch) (o : BatchOutcome) (w : Work) :
    (completeBatch r n b o w).st.buses = w.st.buses := rfl
@[simp] theorem completeBatch_outputs (r : BatchRef) (n : Fin 4) (b : Batch) (o : BatchOutcome) (w : Work) :
    (completeBatch r n b o w).st.outputs = w.st.outputs := rfl
@[simp] theorem completeBatch_host (r : BatchRef) (n : Fin 4) (b : Batch) (o : BatchOutcome) (w : Work) :
    (completeBatch r n b o w).st.host = w.st.host := rfl
@[simp] theorem completeBatch_events (r : BatchRef) (n : Fin 4) (b : Batch) (o : BatchOutcome) (w : Work) :
    (completeBatch r n b o w).st.events = w.st.events := rfl
@[simp] theorem completeBatch_draws (r : BatchRef) (n : Fin 4) (b : Batch) (o : BatchOutcome) (w : Work) :
    (completeBatch r n b o w).st.draws = w.st.draws := rfl
@[simp] theorem completeBatch_pending (r : BatchRef) (n : Fin 4) (b : Batch) (o : BatchOutcome) (w : Work) :
    (completeBatch r n b o w).st.pending = w.st.pending := rfl

@[simp] theorem countOutcome_phase (r : BatchRef) (o : RecordOutcome) (w : Work) :
    (countOutcome r o w).st.phase = w.st.phase := by
  unfold countOutcome; split
  · rfl
  · dsimp only; split <;> simp
@[simp] theorem countOutcome_slots (r : BatchRef) (o : RecordOutcome) (w : Work) :
    (countOutcome r o w).st.slots = w.st.slots := by
  unfold countOutcome; split
  · rfl
  · dsimp only; split <;> simp
@[simp] theorem countOutcome_claims (r : BatchRef) (o : RecordOutcome) (w : Work) :
    (countOutcome r o w).st.claims = w.st.claims := by
  unfold countOutcome; split
  · rfl
  · dsimp only; split <;> simp
@[simp] theorem countOutcome_store (r : BatchRef) (o : RecordOutcome) (w : Work) :
    (countOutcome r o w).st.store = w.st.store := by
  unfold countOutcome; split
  · rfl
  · dsimp only; split <;> simp
@[simp] theorem countOutcome_gen (r : BatchRef) (o : RecordOutcome) (w : Work) :
    (countOutcome r o w).st.gen = w.st.gen := by
  unfold countOutcome; split
  · rfl
  · dsimp only; split <;> simp
@[simp] theorem countOutcome_queues (r : BatchRef) (o : RecordOutcome) (w : Work) :
    (countOutcome r o w).st.queues = w.st.queues := by
  unfold countOutcome; split
  · rfl
  · dsimp only; split <;> simp
@[simp] theorem countOutcome_buses (r : BatchRef) (o : RecordOutcome) (w : Work) :
    (countOutcome r o w).st.buses = w.st.buses := by
  unfold countOutcome; split
  · rfl
  · dsimp only; split <;> simp
@[simp] theorem countOutcome_outputs (r : BatchRef) (o : RecordOutcome) (w : Work) :
    (countOutcome r o w).st.outputs = w.st.outputs := by
  unfold countOutcome; split
  · rfl
  · dsimp only; split <;> simp
@[simp] theorem countOutcome_host (r : BatchRef) (o : RecordOutcome) (w : Work) :
    (countOutcome r o w).st.host = w.st.host := by
  unfold countOutcome; split
  · rfl
  · dsimp only; split <;> simp
@[simp] theorem countOutcome_events (r : BatchRef) (o : RecordOutcome) (w : Work) :
    (countOutcome r o w).st.events = w.st.events := by
  unfold countOutcome; split
  · rfl
  · dsimp only; split <;> simp
@[simp] theorem countOutcome_draws (r : BatchRef) (o : RecordOutcome) (w : Work) :
    (countOutcome r o w).st.draws = w.st.draws := by
  unfold countOutcome; split
  · rfl
  · dsimp only; split <;> simp
@[simp] theorem countOutcome_pending (r : BatchRef) (o : RecordOutcome) (w : Work) :
    (countOutcome r o w).st.pending = w.st.pending := by
  unfold countOutcome; split
  · rfl
  · dsimp only; split <;> simp

@[simp] theorem removeRecord_phase (r : BatchRef) (p : Nat) (s : State) :
    (removeRecord r p s).phase = s.phase := rfl
@[simp] theorem removeRecord_slots (r : BatchRef) (p : Nat) (s : State) :
    (removeRecord r p s).slots = s.slots := rfl
@[simp] theorem removeRecord_claims (r : BatchRef) (p : Nat) (s : State) :
    (removeRecord r p s).claims = s.claims := rfl
@[simp] theorem removeRecord_batches (r : BatchRef) (p : Nat) (s : State) :
    (removeRecord r p s).batches = s.batches := rfl
@[simp] theorem removeRecord_gen (r : BatchRef) (p : Nat) (s : State) :
    (removeRecord r p s).gen = s.gen := rfl
@[simp] theorem removeRecord_queues (r : BatchRef) (p : Nat) (s : State) :
    (removeRecord r p s).queues = s.queues := rfl
@[simp] theorem removeRecord_buses (r : BatchRef) (p : Nat) (s : State) :
    (removeRecord r p s).buses = s.buses := rfl
@[simp] theorem removeRecord_outputs (r : BatchRef) (p : Nat) (s : State) :
    (removeRecord r p s).outputs = s.outputs := rfl
@[simp] theorem removeRecord_host (r : BatchRef) (p : Nat) (s : State) :
    (removeRecord r p s).host = s.host := rfl
@[simp] theorem removeRecord_events (r : BatchRef) (p : Nat) (s : State) :
    (removeRecord r p s).events = s.events := rfl
@[simp] theorem removeRecord_draws (r : BatchRef) (p : Nat) (s : State) :
    (removeRecord r p s).draws = s.draws := rfl
@[simp] theorem removeRecord_pending (r : BatchRef) (p : Nat) (s : State) :
    (removeRecord r p s).pending = s.pending := rfl

@[simp] theorem setRecordState_phase (x : PendingRecord) (st : RecordState) (s : State) :
    (setRecordState x st s).phase = s.phase := rfl
@[simp] theorem setRecordState_slots (x : PendingRecord) (st : RecordState) (s : State) :
    (setRecordState x st s).slots = s.slots := rfl
@[simp] theorem setRecordState_claims (x : PendingRecord) (st : RecordState) (s : State) :
    (setRecordState x st s).claims = s.claims := rfl
@[simp] theorem setRecordState_batches (x : PendingRecord) (st : RecordState) (s : State) :
    (setRecordState x st s).batches = s.batches := rfl
@[simp] theorem setRecordState_gen (x : PendingRecord) (st : RecordState) (s : State) :
    (setRecordState x st s).gen = s.gen := rfl
@[simp] theorem setRecordState_queues (x : PendingRecord) (st : RecordState) (s : State) :
    (setRecordState x st s).queues = s.queues := rfl
@[simp] theorem setRecordState_buses (x : PendingRecord) (st : RecordState) (s : State) :
    (setRecordState x st s).buses = s.buses := rfl
@[simp] theorem setRecordState_outputs (x : PendingRecord) (st : RecordState) (s : State) :
    (setRecordState x st s).outputs = s.outputs := rfl
@[simp] theorem setRecordState_host (x : PendingRecord) (st : RecordState) (s : State) :
    (setRecordState x st s).host = s.host := rfl
@[simp] theorem setRecordState_events (x : PendingRecord) (st : RecordState) (s : State) :
    (setRecordState x st s).events = s.events := rfl
@[simp] theorem setRecordState_draws (x : PendingRecord) (st : RecordState) (s : State) :
    (setRecordState x st s).draws = s.draws := rfl
@[simp] theorem setRecordState_pending (x : PendingRecord) (st : RecordState) (s : State) :
    (setRecordState x st s).pending = s.pending := rfl

@[simp] theorem resolve_phase (r : BatchRef) (p : Nat) (o : RecordOutcome) (w : Work) :
    (resolve r p o w).st.phase = w.st.phase := by simp [resolve]
@[simp] theorem resolve_slots (r : BatchRef) (p : Nat) (o : RecordOutcome) (w : Work) :
    (resolve r p o w).st.slots = w.st.slots := by simp [resolve]
@[simp] theorem resolve_claims (r : BatchRef) (p : Nat) (o : RecordOutcome) (w : Work) :
    (resolve r p o w).st.claims = w.st.claims := by simp [resolve]
@[simp] theorem resolve_gen (r : BatchRef) (p : Nat) (o : RecordOutcome) (w : Work) :
    (resolve r p o w).st.gen = w.st.gen := by simp [resolve]
@[simp] theorem resolve_queues (r : BatchRef) (p : Nat) (o : RecordOutcome) (w : Work) :
    (resolve r p o w).st.queues = w.st.queues := by simp [resolve]
@[simp] theorem resolve_buses (r : BatchRef) (p : Nat) (o : RecordOutcome) (w : Work) :
    (resolve r p o w).st.buses = w.st.buses := by simp [resolve]
@[simp] theorem resolve_outputs (r : BatchRef) (p : Nat) (o : RecordOutcome) (w : Work) :
    (resolve r p o w).st.outputs = w.st.outputs := by simp [resolve]
@[simp] theorem resolve_host (r : BatchRef) (p : Nat) (o : RecordOutcome) (w : Work) :
    (resolve r p o w).st.host = w.st.host := by simp [resolve]
@[simp] theorem resolve_events (r : BatchRef) (p : Nat) (o : RecordOutcome) (w : Work) :
    (resolve r p o w).st.events = w.st.events := by simp [resolve]
@[simp] theorem resolve_draws (r : BatchRef) (p : Nat) (o : RecordOutcome) (w : Work) :
    (resolve r p o w).st.draws = w.st.draws := by simp [resolve]
@[simp] theorem resolve_pending (r : BatchRef) (p : Nat) (o : RecordOutcome) (w : Work) :
    (resolve r p o w).st.pending = w.st.pending := by simp [resolve]

@[simp] theorem markReleasing_phase (r : BatchRef) (s : State) :
    (markReleasing r s).phase = s.phase := by unfold markReleasing; split <;> simp
@[simp] theorem markReleasing_slots (r : BatchRef) (s : State) :
    (markReleasing r s).slots = s.slots := by unfold markReleasing; split <;> simp
@[simp] theorem markReleasing_claims (r : BatchRef) (s : State) :
    (markReleasing r s).claims = s.claims := by unfold markReleasing; split <;> simp
@[simp] theorem markReleasing_store (r : BatchRef) (s : State) :
    (markReleasing r s).store = s.store := by unfold markReleasing; split <;> simp
@[simp] theorem markReleasing_gen (r : BatchRef) (s : State) :
    (markReleasing r s).gen = s.gen := by unfold markReleasing; split <;> simp
@[simp] theorem markReleasing_queues (r : BatchRef) (s : State) :
    (markReleasing r s).queues = s.queues := by unfold markReleasing; split <;> simp
@[simp] theorem markReleasing_buses (r : BatchRef) (s : State) :
    (markReleasing r s).buses = s.buses := by unfold markReleasing; split <;> simp
@[simp] theorem markReleasing_outputs (r : BatchRef) (s : State) :
    (markReleasing r s).outputs = s.outputs := by unfold markReleasing; split <;> simp
@[simp] theorem markReleasing_host (r : BatchRef) (s : State) :
    (markReleasing r s).host = s.host := by unfold markReleasing; split <;> simp
@[simp] theorem markReleasing_events (r : BatchRef) (s : State) :
    (markReleasing r s).events = s.events := by unfold markReleasing; split <;> simp
@[simp] theorem markReleasing_draws (r : BatchRef) (s : State) :
    (markReleasing r s).draws = s.draws := by unfold markReleasing; split <;> simp
@[simp] theorem markReleasing_pending (r : BatchRef) (s : State) :
    (markReleasing r s).pending = s.pending := by unfold markReleasing; split <;> simp

@[simp] theorem dropStale_phase (c : Epoch) (w : Work) :
    (dropStale c w).st.phase = w.st.phase := foldl_work_same _ State.phase (fun _ _ => by simp) _ w
@[simp] theorem dropStale_slots (c : Epoch) (w : Work) :
    (dropStale c w).st.slots = w.st.slots := foldl_work_same _ State.slots (fun _ _ => by simp) _ w
@[simp] theorem dropStale_claims (c : Epoch) (w : Work) :
    (dropStale c w).st.claims = w.st.claims := foldl_work_same _ State.claims (fun _ _ => by simp) _ w
@[simp] theorem dropStale_gen (c : Epoch) (w : Work) :
    (dropStale c w).st.gen = w.st.gen := foldl_work_same _ State.gen (fun _ _ => by simp) _ w
@[simp] theorem dropStale_queues (c : Epoch) (w : Work) :
    (dropStale c w).st.queues = w.st.queues := foldl_work_same _ State.queues (fun _ _ => by simp) _ w
@[simp] theorem dropStale_buses (c : Epoch) (w : Work) :
    (dropStale c w).st.buses = w.st.buses := foldl_work_same _ State.buses (fun _ _ => by simp) _ w
@[simp] theorem dropStale_outputs (c : Epoch) (w : Work) :
    (dropStale c w).st.outputs = w.st.outputs := foldl_work_same _ State.outputs (fun _ _ => by simp) _ w
@[simp] theorem dropStale_host (c : Epoch) (w : Work) :
    (dropStale c w).st.host = w.st.host := foldl_work_same _ State.host (fun _ _ => by simp) _ w
@[simp] theorem dropStale_events (c : Epoch) (w : Work) :
    (dropStale c w).st.events = w.st.events := foldl_work_same _ State.events (fun _ _ => by simp) _ w
@[simp] theorem dropStale_draws (c : Epoch) (w : Work) :
    (dropStale c w).st.draws = w.st.draws := foldl_work_same _ State.draws (fun _ _ => by simp) _ w
@[simp] theorem dropStale_pending (c : Epoch) (w : Work) :
    (dropStale c w).st.pending = w.st.pending := foldl_work_same _ State.pending (fun _ _ => by simp) _ w

@[simp] theorem resetBatch_phase (w : Work) (r : BatchRef) :
    (resetBatch w r).st.phase = w.st.phase := by unfold resetBatch; split <;> simp
@[simp] theorem resetBatch_slots (w : Work) (r : BatchRef) :
    (resetBatch w r).st.slots = w.st.slots := by unfold resetBatch; split <;> simp
@[simp] theorem resetBatch_claims (w : Work) (r : BatchRef) :
    (resetBatch w r).st.claims = w.st.claims := by unfold resetBatch; split <;> simp
@[simp] theorem resetBatch_store (w : Work) (r : BatchRef) :
    (resetBatch w r).st.store = w.st.store := by unfold resetBatch; split <;> simp
@[simp] theorem resetBatch_gen (w : Work) (r : BatchRef) :
    (resetBatch w r).st.gen = w.st.gen := by unfold resetBatch; split <;> simp
@[simp] theorem resetBatch_queues (w : Work) (r : BatchRef) :
    (resetBatch w r).st.queues = w.st.queues := by unfold resetBatch; split <;> simp
@[simp] theorem resetBatch_buses (w : Work) (r : BatchRef) :
    (resetBatch w r).st.buses = w.st.buses := by unfold resetBatch; split <;> simp
@[simp] theorem resetBatch_outputs (w : Work) (r : BatchRef) :
    (resetBatch w r).st.outputs = w.st.outputs := by unfold resetBatch; split <;> simp
@[simp] theorem resetBatch_host (w : Work) (r : BatchRef) :
    (resetBatch w r).st.host = w.st.host := by unfold resetBatch; split <;> simp
@[simp] theorem resetBatch_events (w : Work) (r : BatchRef) :
    (resetBatch w r).st.events = w.st.events := by unfold resetBatch; split <;> simp
@[simp] theorem resetBatch_draws (w : Work) (r : BatchRef) :
    (resetBatch w r).st.draws = w.st.draws := by unfold resetBatch; split <;> simp
@[simp] theorem resetBatch_pending (w : Work) (r : BatchRef) :
    (resetBatch w r).st.pending = w.st.pending := by unfold resetBatch; split <;> simp

@[simp] theorem resetBatchesAndStore_phase (w : Work) :
    (resetBatchesAndStore w).st.phase = w.st.phase := by
  simp only [resetBatchesAndStore, Work.update_st, State.setSealList_phase, State.setStore_phase]
  exact foldl_work_same _ State.phase (fun _ _ => by simp) _ w
@[simp] theorem resetBatchesAndStore_slots (w : Work) :
    (resetBatchesAndStore w).st.slots = w.st.slots := by
  simp only [resetBatchesAndStore, Work.update_st, State.setSealList_slots, State.setStore_slots]
  exact foldl_work_same _ State.slots (fun _ _ => by simp) _ w
@[simp] theorem resetBatchesAndStore_claims (w : Work) :
    (resetBatchesAndStore w).st.claims = w.st.claims := by
  simp only [resetBatchesAndStore, Work.update_st, State.setSealList_claims, State.setStore_claims]
  exact foldl_work_same _ State.claims (fun _ _ => by simp) _ w
@[simp] theorem resetBatchesAndStore_gen (w : Work) :
    (resetBatchesAndStore w).st.gen = w.st.gen := by
  simp only [resetBatchesAndStore, Work.update_st, State.setSealList_gen, State.setStore_gen]
  exact foldl_work_same _ State.gen (fun _ _ => by simp) _ w
@[simp] theorem resetBatchesAndStore_queues (w : Work) :
    (resetBatchesAndStore w).st.queues = w.st.queues := by
  simp only [resetBatchesAndStore, Work.update_st, State.setSealList_queues, State.setStore_queues]
  exact foldl_work_same _ State.queues (fun _ _ => by simp) _ w
@[simp] theorem resetBatchesAndStore_buses (w : Work) :
    (resetBatchesAndStore w).st.buses = w.st.buses := by
  simp only [resetBatchesAndStore, Work.update_st, State.setSealList_buses, State.setStore_buses]
  exact foldl_work_same _ State.buses (fun _ _ => by simp) _ w
@[simp] theorem resetBatchesAndStore_outputs (w : Work) :
    (resetBatchesAndStore w).st.outputs = w.st.outputs := by
  simp only [resetBatchesAndStore, Work.update_st, State.setSealList_outputs, State.setStore_outputs]
  exact foldl_work_same _ State.outputs (fun _ _ => by simp) _ w
@[simp] theorem resetBatchesAndStore_host (w : Work) :
    (resetBatchesAndStore w).st.host = w.st.host := by
  simp only [resetBatchesAndStore, Work.update_st, State.setSealList_host, State.setStore_host]
  exact foldl_work_same _ State.host (fun _ _ => by simp) _ w
@[simp] theorem resetBatchesAndStore_events (w : Work) :
    (resetBatchesAndStore w).st.events = w.st.events := by
  simp only [resetBatchesAndStore, Work.update_st, State.setSealList_events, State.setStore_events]
  exact foldl_work_same _ State.events (fun _ _ => by simp) _ w
@[simp] theorem resetBatchesAndStore_draws (w : Work) :
    (resetBatchesAndStore w).st.draws = w.st.draws := by
  simp only [resetBatchesAndStore, Work.update_st, State.setSealList_draws, State.setStore_draws]
  exact foldl_work_same _ State.draws (fun _ _ => by simp) _ w
@[simp] theorem resetBatchesAndStore_pending (w : Work) :
    (resetBatchesAndStore w).st.pending = w.st.pending := by
  simp only [resetBatchesAndStore, Work.update_st, State.setSealList_pending, State.setStore_pending]
  exact foldl_work_same _ State.pending (fun _ _ => by simp) _ w

/-! ### Slots -/

@[simp] theorem completeSlot_phase (e : Entry) (done : Bool) (s : State) :
    (completeSlot e done s).phase = s.phase := by
  unfold completeSlot; split
  · rfl
  · dsimp only; split <;> simp
@[simp] theorem completeSlot_claims (e : Entry) (done : Bool) (s : State) :
    (completeSlot e done s).claims = s.claims := by
  unfold completeSlot; split
  · rfl
  · dsimp only; split <;> simp
@[simp] theorem completeSlot_batches (e : Entry) (done : Bool) (s : State) :
    (completeSlot e done s).batches = s.batches := by
  unfold completeSlot; split
  · rfl
  · dsimp only; split <;> simp
@[simp] theorem completeSlot_store (e : Entry) (done : Bool) (s : State) :
    (completeSlot e done s).store = s.store := by
  unfold completeSlot; split
  · rfl
  · dsimp only; split <;> simp
@[simp] theorem completeSlot_gen (e : Entry) (done : Bool) (s : State) :
    (completeSlot e done s).gen = s.gen := by
  unfold completeSlot; split
  · rfl
  · dsimp only; split <;> simp
@[simp] theorem completeSlot_queues (e : Entry) (done : Bool) (s : State) :
    (completeSlot e done s).queues = s.queues := by
  unfold completeSlot; split
  · rfl
  · dsimp only; split <;> simp
@[simp] theorem completeSlot_buses (e : Entry) (done : Bool) (s : State) :
    (completeSlot e done s).buses = s.buses := by
  unfold completeSlot; split
  · rfl
  · dsimp only; split <;> simp
@[simp] theorem completeSlot_outputs (e : Entry) (done : Bool) (s : State) :
    (completeSlot e done s).outputs = s.outputs := by
  unfold completeSlot; split
  · rfl
  · dsimp only; split <;> simp
@[simp] theorem completeSlot_host (e : Entry) (done : Bool) (s : State) :
    (completeSlot e done s).host = s.host := by
  unfold completeSlot; split
  · rfl
  · dsimp only; split <;> simp
@[simp] theorem completeSlot_events (e : Entry) (done : Bool) (s : State) :
    (completeSlot e done s).events = s.events := by
  unfold completeSlot; split
  · rfl
  · dsimp only; split <;> simp
@[simp] theorem completeSlot_draws (e : Entry) (done : Bool) (s : State) :
    (completeSlot e done s).draws = s.draws := by
  unfold completeSlot; split
  · rfl
  · dsimp only; split <;> simp
@[simp] theorem completeSlot_pending (e : Entry) (done : Bool) (s : State) :
    (completeSlot e done s).pending = s.pending := by
  unfold completeSlot; split
  · rfl
  · dsimp only; split <;> simp

@[simp] theorem applyLocal_phase (x : PendingRecord) (s : State) :
    (applyLocal x s).phase = s.phase := rfl
@[simp] theorem applyLocal_claims (x : PendingRecord) (s : State) :
    (applyLocal x s).claims = s.claims := rfl
@[simp] theorem applyLocal_batches (x : PendingRecord) (s : State) :
    (applyLocal x s).batches = s.batches := rfl
@[simp] theorem applyLocal_store (x : PendingRecord) (s : State) :
    (applyLocal x s).store = s.store := rfl
@[simp] theorem applyLocal_gen (x : PendingRecord) (s : State) :
    (applyLocal x s).gen = s.gen := rfl
@[simp] theorem applyLocal_queues (x : PendingRecord) (s : State) :
    (applyLocal x s).queues = s.queues := rfl
@[simp] theorem applyLocal_buses (x : PendingRecord) (s : State) :
    (applyLocal x s).buses = s.buses := rfl
@[simp] theorem applyLocal_outputs (x : PendingRecord) (s : State) :
    (applyLocal x s).outputs = s.outputs := rfl
@[simp] theorem applyLocal_host (x : PendingRecord) (s : State) :
    (applyLocal x s).host = s.host := rfl
@[simp] theorem applyLocal_events (x : PendingRecord) (s : State) :
    (applyLocal x s).events = s.events := rfl
@[simp] theorem applyLocal_draws (x : PendingRecord) (s : State) :
    (applyLocal x s).draws = s.draws := rfl
@[simp] theorem applyLocal_pending (x : PendingRecord) (s : State) :
    (applyLocal x s).pending = s.pending := rfl

/-! ### Queues -/

@[simp] theorem tellSuperseded_phase (e : Entry) (i : SlotNo) (w : Work) :
    (tellSuperseded e i w).st.phase = w.st.phase := by unfold tellSuperseded; split <;> simp
@[simp] theorem tellSuperseded_slots (e : Entry) (i : SlotNo) (w : Work) :
    (tellSuperseded e i w).st.slots = w.st.slots := by unfold tellSuperseded; split <;> simp
@[simp] theorem tellSuperseded_claims (e : Entry) (i : SlotNo) (w : Work) :
    (tellSuperseded e i w).st.claims = w.st.claims := by unfold tellSuperseded; split <;> simp
@[simp] theorem tellSuperseded_gen (e : Entry) (i : SlotNo) (w : Work) :
    (tellSuperseded e i w).st.gen = w.st.gen := by unfold tellSuperseded; split <;> simp
@[simp] theorem tellSuperseded_queues (e : Entry) (i : SlotNo) (w : Work) :
    (tellSuperseded e i w).st.queues = w.st.queues := by unfold tellSuperseded; split <;> simp
@[simp] theorem tellSuperseded_buses (e : Entry) (i : SlotNo) (w : Work) :
    (tellSuperseded e i w).st.buses = w.st.buses := by unfold tellSuperseded; split <;> simp
@[simp] theorem tellSuperseded_outputs (e : Entry) (i : SlotNo) (w : Work) :
    (tellSuperseded e i w).st.outputs = w.st.outputs := by unfold tellSuperseded; split <;> simp
@[simp] theorem tellSuperseded_host (e : Entry) (i : SlotNo) (w : Work) :
    (tellSuperseded e i w).st.host = w.st.host := by unfold tellSuperseded; split <;> simp
@[simp] theorem tellSuperseded_events (e : Entry) (i : SlotNo) (w : Work) :
    (tellSuperseded e i w).st.events = w.st.events := by unfold tellSuperseded; split <;> simp
@[simp] theorem tellSuperseded_draws (e : Entry) (i : SlotNo) (w : Work) :
    (tellSuperseded e i w).st.draws = w.st.draws := by unfold tellSuperseded; split <;> simp
@[simp] theorem tellSuperseded_pending (e : Entry) (i : SlotNo) (w : Work) :
    (tellSuperseded e i w).st.pending = w.st.pending := by unfold tellSuperseded; split <;> simp

@[simp] theorem supersede_phase (b : BusNo) (i : SlotNo) (w : Work) :
    (supersede b i w).st.phase = w.st.phase := by unfold supersede; split <;> simp
@[simp] theorem supersede_slots (b : BusNo) (i : SlotNo) (w : Work) :
    (supersede b i w).st.slots = w.st.slots := by unfold supersede; split <;> simp
@[simp] theorem supersede_claims (b : BusNo) (i : SlotNo) (w : Work) :
    (supersede b i w).st.claims = w.st.claims := by unfold supersede; split <;> simp
@[simp] theorem supersede_gen (b : BusNo) (i : SlotNo) (w : Work) :
    (supersede b i w).st.gen = w.st.gen := by unfold supersede; split <;> simp
@[simp] theorem supersede_buses (b : BusNo) (i : SlotNo) (w : Work) :
    (supersede b i w).st.buses = w.st.buses := by unfold supersede; split <;> simp
@[simp] theorem supersede_outputs (b : BusNo) (i : SlotNo) (w : Work) :
    (supersede b i w).st.outputs = w.st.outputs := by unfold supersede; split <;> simp
@[simp] theorem supersede_host (b : BusNo) (i : SlotNo) (w : Work) :
    (supersede b i w).st.host = w.st.host := by unfold supersede; split <;> simp
@[simp] theorem supersede_events (b : BusNo) (i : SlotNo) (w : Work) :
    (supersede b i w).st.events = w.st.events := by unfold supersede; split <;> simp
@[simp] theorem supersede_draws (b : BusNo) (i : SlotNo) (w : Work) :
    (supersede b i w).st.draws = w.st.draws := by unfold supersede; split <;> simp
@[simp] theorem supersede_pending (b : BusNo) (i : SlotNo) (w : Work) :
    (supersede b i w).st.pending = w.st.pending := by unfold supersede; split <;> simp

@[simp] theorem append_phase (b : BusNo) (e : Entry) (s : State) :
    (append b e s).phase = s.phase := by unfold append; split <;> simp
@[simp] theorem append_slots (b : BusNo) (e : Entry) (s : State) :
    (append b e s).slots = s.slots := by unfold append; split <;> simp
@[simp] theorem append_claims (b : BusNo) (e : Entry) (s : State) :
    (append b e s).claims = s.claims := by unfold append; split <;> simp
@[simp] theorem append_batches (b : BusNo) (e : Entry) (s : State) :
    (append b e s).batches = s.batches := by unfold append; split <;> simp
@[simp] theorem append_store (b : BusNo) (e : Entry) (s : State) :
    (append b e s).store = s.store := by unfold append; split <;> simp
@[simp] theorem append_gen (b : BusNo) (e : Entry) (s : State) :
    (append b e s).gen = s.gen := by unfold append; split <;> simp
@[simp] theorem append_buses (b : BusNo) (e : Entry) (s : State) :
    (append b e s).buses = s.buses := by unfold append; split <;> simp
@[simp] theorem append_outputs (b : BusNo) (e : Entry) (s : State) :
    (append b e s).outputs = s.outputs := by unfold append; split <;> simp
@[simp] theorem append_host (b : BusNo) (e : Entry) (s : State) :
    (append b e s).host = s.host := by unfold append; split <;> simp
@[simp] theorem append_events (b : BusNo) (e : Entry) (s : State) :
    (append b e s).events = s.events := by unfold append; split <;> simp
@[simp] theorem append_draws (b : BusNo) (e : Entry) (s : State) :
    (append b e s).draws = s.draws := by unfold append; split <;> simp
@[simp] theorem append_pending (b : BusNo) (e : Entry) (s : State) :
    (append b e s).pending = s.pending := by unfold append; split <;> simp

@[simp] theorem supersedeDeferred_phase (i : SlotNo) (w : Work) :
    (supersedeDeferred i w).st.phase = w.st.phase := by unfold supersedeDeferred; split <;> simp
@[simp] theorem supersedeDeferred_slots (i : SlotNo) (w : Work) :
    (supersedeDeferred i w).st.slots = w.st.slots := by unfold supersedeDeferred; split <;> simp
@[simp] theorem supersedeDeferred_claims (i : SlotNo) (w : Work) :
    (supersedeDeferred i w).st.claims = w.st.claims := by unfold supersedeDeferred; split <;> simp
@[simp] theorem supersedeDeferred_gen (i : SlotNo) (w : Work) :
    (supersedeDeferred i w).st.gen = w.st.gen := by unfold supersedeDeferred; split <;> simp
@[simp] theorem supersedeDeferred_queues (i : SlotNo) (w : Work) :
    (supersedeDeferred i w).st.queues = w.st.queues := by unfold supersedeDeferred; split <;> simp
@[simp] theorem supersedeDeferred_buses (i : SlotNo) (w : Work) :
    (supersedeDeferred i w).st.buses = w.st.buses := by unfold supersedeDeferred; split <;> simp
@[simp] theorem supersedeDeferred_outputs (i : SlotNo) (w : Work) :
    (supersedeDeferred i w).st.outputs = w.st.outputs := by unfold supersedeDeferred; split <;> simp
@[simp] theorem supersedeDeferred_host (i : SlotNo) (w : Work) :
    (supersedeDeferred i w).st.host = w.st.host := by unfold supersedeDeferred; split <;> simp
@[simp] theorem supersedeDeferred_events (i : SlotNo) (w : Work) :
    (supersedeDeferred i w).st.events = w.st.events := by unfold supersedeDeferred; split <;> simp
@[simp] theorem supersedeDeferred_draws (i : SlotNo) (w : Work) :
    (supersedeDeferred i w).st.draws = w.st.draws := by unfold supersedeDeferred; split <;> simp
@[simp] theorem supersedeDeferred_pending (i : SlotNo) (w : Work) :
    (supersedeDeferred i w).st.pending = w.st.pending := by unfold supersedeDeferred; split <;> simp

@[simp] theorem releaseLocal_phase (x : PendingRecord) (w : Work) :
    (releaseLocal x w).st.phase = w.st.phase := by simp [releaseLocal]
@[simp] theorem releaseLocal_claims (x : PendingRecord) (w : Work) :
    (releaseLocal x w).st.claims = w.st.claims := by simp [releaseLocal]
@[simp] theorem releaseLocal_gen (x : PendingRecord) (w : Work) :
    (releaseLocal x w).st.gen = w.st.gen := by simp [releaseLocal]
@[simp] theorem releaseLocal_queues (x : PendingRecord) (w : Work) :
    (releaseLocal x w).st.queues = w.st.queues := by simp [releaseLocal]
@[simp] theorem releaseLocal_buses (x : PendingRecord) (w : Work) :
    (releaseLocal x w).st.buses = w.st.buses := by simp [releaseLocal]
@[simp] theorem releaseLocal_outputs (x : PendingRecord) (w : Work) :
    (releaseLocal x w).st.outputs = w.st.outputs := by simp [releaseLocal]
@[simp] theorem releaseLocal_host (x : PendingRecord) (w : Work) :
    (releaseLocal x w).st.host = w.st.host := by simp [releaseLocal]
@[simp] theorem releaseLocal_events (x : PendingRecord) (w : Work) :
    (releaseLocal x w).st.events = w.st.events := by simp [releaseLocal]
@[simp] theorem releaseLocal_draws (x : PendingRecord) (w : Work) :
    (releaseLocal x w).st.draws = w.st.draws := by simp [releaseLocal]
@[simp] theorem releaseLocal_pending (x : PendingRecord) (w : Work) :
    (releaseLocal x w).st.pending = w.st.pending := by simp [releaseLocal]

@[simp] theorem releaseDownstream_phase (x : PendingRecord) (d : DeviceNo) (w : Work) :
    (releaseDownstream x d w).st.phase = w.st.phase := by unfold releaseDownstream; dsimp only; split <;> simp
@[simp] theorem releaseDownstream_slots (x : PendingRecord) (d : DeviceNo) (w : Work) :
    (releaseDownstream x d w).st.slots = w.st.slots := by unfold releaseDownstream; dsimp only; split <;> simp
@[simp] theorem releaseDownstream_claims (x : PendingRecord) (d : DeviceNo) (w : Work) :
    (releaseDownstream x d w).st.claims = w.st.claims := by unfold releaseDownstream; dsimp only; split <;> simp
@[simp] theorem releaseDownstream_gen (x : PendingRecord) (d : DeviceNo) (w : Work) :
    (releaseDownstream x d w).st.gen = w.st.gen := by unfold releaseDownstream; dsimp only; split <;> simp
@[simp] theorem releaseDownstream_buses (x : PendingRecord) (d : DeviceNo) (w : Work) :
    (releaseDownstream x d w).st.buses = w.st.buses := by unfold releaseDownstream; dsimp only; split <;> simp
@[simp] theorem releaseDownstream_outputs (x : PendingRecord) (d : DeviceNo) (w : Work) :
    (releaseDownstream x d w).st.outputs = w.st.outputs := by unfold releaseDownstream; dsimp only; split <;> simp
@[simp] theorem releaseDownstream_host (x : PendingRecord) (d : DeviceNo) (w : Work) :
    (releaseDownstream x d w).st.host = w.st.host := by unfold releaseDownstream; dsimp only; split <;> simp
@[simp] theorem releaseDownstream_events (x : PendingRecord) (d : DeviceNo) (w : Work) :
    (releaseDownstream x d w).st.events = w.st.events := by unfold releaseDownstream; dsimp only; split <;> simp
@[simp] theorem releaseDownstream_draws (x : PendingRecord) (d : DeviceNo) (w : Work) :
    (releaseDownstream x d w).st.draws = w.st.draws := by unfold releaseDownstream; dsimp only; split <;> simp
@[simp] theorem releaseDownstream_pending (x : PendingRecord) (d : DeviceNo) (w : Work) :
    (releaseDownstream x d w).st.pending = w.st.pending := by unfold releaseDownstream; dsimp only; split <;> simp

@[simp] theorem releaseRecord_phase (w : Work) (x : PendingRecord) :
    (releaseRecord w x).st.phase = w.st.phase := by unfold releaseRecord; dsimp only; split <;> simp
@[simp] theorem releaseRecord_claims (w : Work) (x : PendingRecord) :
    (releaseRecord w x).st.claims = w.st.claims := by unfold releaseRecord; dsimp only; split <;> simp
@[simp] theorem releaseRecord_gen (w : Work) (x : PendingRecord) :
    (releaseRecord w x).st.gen = w.st.gen := by unfold releaseRecord; dsimp only; split <;> simp
@[simp] theorem releaseRecord_buses (w : Work) (x : PendingRecord) :
    (releaseRecord w x).st.buses = w.st.buses := by unfold releaseRecord; dsimp only; split <;> simp
@[simp] theorem releaseRecord_outputs (w : Work) (x : PendingRecord) :
    (releaseRecord w x).st.outputs = w.st.outputs := by unfold releaseRecord; dsimp only; split <;> simp
@[simp] theorem releaseRecord_host (w : Work) (x : PendingRecord) :
    (releaseRecord w x).st.host = w.st.host := by unfold releaseRecord; dsimp only; split <;> simp
@[simp] theorem releaseRecord_events (w : Work) (x : PendingRecord) :
    (releaseRecord w x).st.events = w.st.events := by unfold releaseRecord; dsimp only; split <;> simp
@[simp] theorem releaseRecord_draws (w : Work) (x : PendingRecord) :
    (releaseRecord w x).st.draws = w.st.draws := by unfold releaseRecord; dsimp only; split <;> simp
@[simp] theorem releaseRecord_pending (w : Work) (x : PendingRecord) :
    (releaseRecord w x).st.pending = w.st.pending := by unfold releaseRecord; dsimp only; split <;> simp

@[simp] theorem releaseDue_phase (w : Work) :
    (releaseDue w).st.phase = w.st.phase := foldl_work_same _ State.phase (fun _ _ => by simp) _ w
@[simp] theorem releaseDue_claims (w : Work) :
    (releaseDue w).st.claims = w.st.claims := foldl_work_same _ State.claims (fun _ _ => by simp) _ w
@[simp] theorem releaseDue_gen (w : Work) :
    (releaseDue w).st.gen = w.st.gen := foldl_work_same _ State.gen (fun _ _ => by simp) _ w
@[simp] theorem releaseDue_buses (w : Work) :
    (releaseDue w).st.buses = w.st.buses := foldl_work_same _ State.buses (fun _ _ => by simp) _ w
@[simp] theorem releaseDue_outputs (w : Work) :
    (releaseDue w).st.outputs = w.st.outputs := foldl_work_same _ State.outputs (fun _ _ => by simp) _ w
@[simp] theorem releaseDue_host (w : Work) :
    (releaseDue w).st.host = w.st.host := foldl_work_same _ State.host (fun _ _ => by simp) _ w
@[simp] theorem releaseDue_events (w : Work) :
    (releaseDue w).st.events = w.st.events := foldl_work_same _ State.events (fun _ _ => by simp) _ w
@[simp] theorem releaseDue_draws (w : Work) :
    (releaseDue w).st.draws = w.st.draws := foldl_work_same _ State.draws (fun _ _ => by simp) _ w
@[simp] theorem releaseDue_pending (w : Work) :
    (releaseDue w).st.pending = w.st.pending := foldl_work_same _ State.pending (fun _ _ => by simp) _ w

@[simp] theorem refillOne_phase (b : BusNo) (s : State) (x : PendingRecord) :
    (refillOne b s x).phase = s.phase := by
  unfold refillOne; split
  · rfl
  · split <;> simp
@[simp] theorem refillOne_slots (b : BusNo) (s : State) (x : PendingRecord) :
    (refillOne b s x).slots = s.slots := by
  unfold refillOne; split
  · rfl
  · split <;> simp
@[simp] theorem refillOne_claims (b : BusNo) (s : State) (x : PendingRecord) :
    (refillOne b s x).claims = s.claims := by
  unfold refillOne; split
  · rfl
  · split <;> simp
@[simp] theorem refillOne_batches (b : BusNo) (s : State) (x : PendingRecord) :
    (refillOne b s x).batches = s.batches := by
  unfold refillOne; split
  · rfl
  · split <;> simp
@[simp] theorem refillOne_gen (b : BusNo) (s : State) (x : PendingRecord) :
    (refillOne b s x).gen = s.gen := by
  unfold refillOne; split
  · rfl
  · split <;> simp
@[simp] theorem refillOne_buses (b : BusNo) (s : State) (x : PendingRecord) :
    (refillOne b s x).buses = s.buses := by
  unfold refillOne; split
  · rfl
  · split <;> simp
@[simp] theorem refillOne_outputs (b : BusNo) (s : State) (x : PendingRecord) :
    (refillOne b s x).outputs = s.outputs := by
  unfold refillOne; split
  · rfl
  · split <;> simp
@[simp] theorem refillOne_host (b : BusNo) (s : State) (x : PendingRecord) :
    (refillOne b s x).host = s.host := by
  unfold refillOne; split
  · rfl
  · split <;> simp
@[simp] theorem refillOne_events (b : BusNo) (s : State) (x : PendingRecord) :
    (refillOne b s x).events = s.events := by
  unfold refillOne; split
  · rfl
  · split <;> simp
@[simp] theorem refillOne_draws (b : BusNo) (s : State) (x : PendingRecord) :
    (refillOne b s x).draws = s.draws := by
  unfold refillOne; split
  · rfl
  · split <;> simp
@[simp] theorem refillOne_pending (b : BusNo) (s : State) (x : PendingRecord) :
    (refillOne b s x).pending = s.pending := by
  unfold refillOne; split
  · rfl
  · split <;> simp

@[simp] theorem refill_phase (b : BusNo) (s : State) :
    (refill b s).phase = s.phase := foldl_same _ State.phase (fun _ _ => by simp) _ s
@[simp] theorem refill_slots (b : BusNo) (s : State) :
    (refill b s).slots = s.slots := foldl_same _ State.slots (fun _ _ => by simp) _ s
@[simp] theorem refill_claims (b : BusNo) (s : State) :
    (refill b s).claims = s.claims := foldl_same _ State.claims (fun _ _ => by simp) _ s
@[simp] theorem refill_batches (b : BusNo) (s : State) :
    (refill b s).batches = s.batches := foldl_same _ State.batches (fun _ _ => by simp) _ s
@[simp] theorem refill_gen (b : BusNo) (s : State) :
    (refill b s).gen = s.gen := foldl_same _ State.gen (fun _ _ => by simp) _ s
@[simp] theorem refill_buses (b : BusNo) (s : State) :
    (refill b s).buses = s.buses := foldl_same _ State.buses (fun _ _ => by simp) _ s
@[simp] theorem refill_outputs (b : BusNo) (s : State) :
    (refill b s).outputs = s.outputs := foldl_same _ State.outputs (fun _ _ => by simp) _ s
@[simp] theorem refill_host (b : BusNo) (s : State) :
    (refill b s).host = s.host := foldl_same _ State.host (fun _ _ => by simp) _ s
@[simp] theorem refill_events (b : BusNo) (s : State) :
    (refill b s).events = s.events := foldl_same _ State.events (fun _ _ => by simp) _ s
@[simp] theorem refill_draws (b : BusNo) (s : State) :
    (refill b s).draws = s.draws := foldl_same _ State.draws (fun _ _ => by simp) _ s
@[simp] theorem refill_pending (b : BusNo) (s : State) :
    (refill b s).pending = s.pending := foldl_same _ State.pending (fun _ _ => by simp) _ s

@[simp] theorem placePrime_phase (s : State) (i : SlotNo) :
    (placePrime s i).phase = s.phase := by
  unfold placePrime; split
  · rfl
  · dsimp only; split <;> simp
@[simp] theorem placePrime_slots (s : State) (i : SlotNo) :
    (placePrime s i).slots = s.slots := by
  unfold placePrime; split
  · rfl
  · dsimp only; split <;> simp
@[simp] theorem placePrime_claims (s : State) (i : SlotNo) :
    (placePrime s i).claims = s.claims := by
  unfold placePrime; split
  · rfl
  · dsimp only; split <;> simp
@[simp] theorem placePrime_batches (s : State) (i : SlotNo) :
    (placePrime s i).batches = s.batches := by
  unfold placePrime; split
  · rfl
  · dsimp only; split <;> simp
@[simp] theorem placePrime_store (s : State) (i : SlotNo) :
    (placePrime s i).store = s.store := by
  unfold placePrime; split
  · rfl
  · dsimp only; split <;> simp
@[simp] theorem placePrime_buses (s : State) (i : SlotNo) :
    (placePrime s i).buses = s.buses := by
  unfold placePrime; split
  · rfl
  · dsimp only; split <;> simp
@[simp] theorem placePrime_outputs (s : State) (i : SlotNo) :
    (placePrime s i).outputs = s.outputs := by
  unfold placePrime; split
  · rfl
  · dsimp only; split <;> simp
@[simp] theorem placePrime_host (s : State) (i : SlotNo) :
    (placePrime s i).host = s.host := by
  unfold placePrime; split
  · rfl
  · dsimp only; split <;> simp
@[simp] theorem placePrime_events (s : State) (i : SlotNo) :
    (placePrime s i).events = s.events := by
  unfold placePrime; split
  · rfl
  · dsimp only; split <;> simp
@[simp] theorem placePrime_draws (s : State) (i : SlotNo) :
    (placePrime s i).draws = s.draws := by
  unfold placePrime; split
  · rfl
  · dsimp only; split <;> simp
@[simp] theorem placePrime_pending (s : State) (i : SlotNo) :
    (placePrime s i).pending = s.pending := by
  unfold placePrime; split
  · rfl
  · dsimp only; split <;> simp

@[simp] theorem placePrimes_phase (s : State) :
    (placePrimes s).phase = s.phase := foldl_same _ State.phase (fun _ _ => by simp) _ s
@[simp] theorem placePrimes_slots (s : State) :
    (placePrimes s).slots = s.slots := foldl_same _ State.slots (fun _ _ => by simp) _ s
@[simp] theorem placePrimes_claims (s : State) :
    (placePrimes s).claims = s.claims := foldl_same _ State.claims (fun _ _ => by simp) _ s
@[simp] theorem placePrimes_batches (s : State) :
    (placePrimes s).batches = s.batches := foldl_same _ State.batches (fun _ _ => by simp) _ s
@[simp] theorem placePrimes_store (s : State) :
    (placePrimes s).store = s.store := foldl_same _ State.store (fun _ _ => by simp) _ s
@[simp] theorem placePrimes_buses (s : State) :
    (placePrimes s).buses = s.buses := foldl_same _ State.buses (fun _ _ => by simp) _ s
@[simp] theorem placePrimes_outputs (s : State) :
    (placePrimes s).outputs = s.outputs := foldl_same _ State.outputs (fun _ _ => by simp) _ s
@[simp] theorem placePrimes_host (s : State) :
    (placePrimes s).host = s.host := foldl_same _ State.host (fun _ _ => by simp) _ s
@[simp] theorem placePrimes_events (s : State) :
    (placePrimes s).events = s.events := foldl_same _ State.events (fun _ _ => by simp) _ s
@[simp] theorem placePrimes_draws (s : State) :
    (placePrimes s).draws = s.draws := foldl_same _ State.draws (fun _ _ => by simp) _ s
@[simp] theorem placePrimes_pending (s : State) :
    (placePrimes s).pending = s.pending := foldl_same _ State.pending (fun _ _ => by simp) _ s

@[simp] theorem fillPlaces_phase (b : BusNo) (s : State) :
    (fillPlaces b s).phase = s.phase := by unfold fillPlaces; dsimp only; split <;> simp
@[simp] theorem fillPlaces_slots (b : BusNo) (s : State) :
    (fillPlaces b s).slots = s.slots := by unfold fillPlaces; dsimp only; split <;> simp
@[simp] theorem fillPlaces_claims (b : BusNo) (s : State) :
    (fillPlaces b s).claims = s.claims := by unfold fillPlaces; dsimp only; split <;> simp
@[simp] theorem fillPlaces_batches (b : BusNo) (s : State) :
    (fillPlaces b s).batches = s.batches := by unfold fillPlaces; dsimp only; split <;> simp
@[simp] theorem fillPlaces_buses (b : BusNo) (s : State) :
    (fillPlaces b s).buses = s.buses := by unfold fillPlaces; dsimp only; split <;> simp
@[simp] theorem fillPlaces_outputs (b : BusNo) (s : State) :
    (fillPlaces b s).outputs = s.outputs := by unfold fillPlaces; dsimp only; split <;> simp
@[simp] theorem fillPlaces_host (b : BusNo) (s : State) :
    (fillPlaces b s).host = s.host := by unfold fillPlaces; dsimp only; split <;> simp
@[simp] theorem fillPlaces_events (b : BusNo) (s : State) :
    (fillPlaces b s).events = s.events := by unfold fillPlaces; dsimp only; split <;> simp
@[simp] theorem fillPlaces_draws (b : BusNo) (s : State) :
    (fillPlaces b s).draws = s.draws := by unfold fillPlaces; dsimp only; split <;> simp
@[simp] theorem fillPlaces_pending (b : BusNo) (s : State) :
    (fillPlaces b s).pending = s.pending := by unfold fillPlaces; dsimp only; split <;> simp

@[simp] theorem markQueuesLate_phase (d : Epoch) (s : State) :
    (markQueuesLate d s).phase = s.phase := rfl
@[simp] theorem markQueuesLate_slots (d : Epoch) (s : State) :
    (markQueuesLate d s).slots = s.slots := rfl
@[simp] theorem markQueuesLate_claims (d : Epoch) (s : State) :
    (markQueuesLate d s).claims = s.claims := rfl
@[simp] theorem markQueuesLate_batches (d : Epoch) (s : State) :
    (markQueuesLate d s).batches = s.batches := rfl
@[simp] theorem markQueuesLate_store (d : Epoch) (s : State) :
    (markQueuesLate d s).store = s.store := rfl
@[simp] theorem markQueuesLate_gen (d : Epoch) (s : State) :
    (markQueuesLate d s).gen = s.gen := rfl
@[simp] theorem markQueuesLate_buses (d : Epoch) (s : State) :
    (markQueuesLate d s).buses = s.buses := rfl
@[simp] theorem markQueuesLate_outputs (d : Epoch) (s : State) :
    (markQueuesLate d s).outputs = s.outputs := rfl
@[simp] theorem markQueuesLate_host (d : Epoch) (s : State) :
    (markQueuesLate d s).host = s.host := rfl
@[simp] theorem markQueuesLate_events (d : Epoch) (s : State) :
    (markQueuesLate d s).events = s.events := rfl
@[simp] theorem markQueuesLate_draws (d : Epoch) (s : State) :
    (markQueuesLate d s).draws = s.draws := rfl
@[simp] theorem markQueuesLate_pending (d : Epoch) (s : State) :
    (markQueuesLate d s).pending = s.pending := rfl

@[simp] theorem abandonPrimes_phase (s : State) :
    (abandonPrimes s).phase = s.phase := by simp [abandonPrimes]
@[simp] theorem abandonPrimes_slots (s : State) :
    (abandonPrimes s).slots = s.slots := by simp [abandonPrimes]
@[simp] theorem abandonPrimes_claims (s : State) :
    (abandonPrimes s).claims = s.claims := by simp [abandonPrimes]
@[simp] theorem abandonPrimes_batches (s : State) :
    (abandonPrimes s).batches = s.batches := by simp [abandonPrimes]
@[simp] theorem abandonPrimes_gen (s : State) :
    (abandonPrimes s).gen = s.gen := by simp [abandonPrimes]
@[simp] theorem abandonPrimes_buses (s : State) :
    (abandonPrimes s).buses = s.buses := by simp [abandonPrimes]
@[simp] theorem abandonPrimes_outputs (s : State) :
    (abandonPrimes s).outputs = s.outputs := by simp [abandonPrimes]
@[simp] theorem abandonPrimes_host (s : State) :
    (abandonPrimes s).host = s.host := by simp [abandonPrimes]
@[simp] theorem abandonPrimes_events (s : State) :
    (abandonPrimes s).events = s.events := by simp [abandonPrimes]
@[simp] theorem abandonPrimes_draws (s : State) :
    (abandonPrimes s).draws = s.draws := by simp [abandonPrimes]
@[simp] theorem abandonPrimes_pending (s : State) :
    (abandonPrimes s).pending = s.pending := by simp [abandonPrimes]

@[simp] theorem detachQueue_phase (k : Client) (s : State) (b : BusNo) :
    (detachQueue k s b).phase = s.phase := by simp [detachQueue]
@[simp] theorem detachQueue_slots (k : Client) (s : State) (b : BusNo) :
    (detachQueue k s b).slots = s.slots := by simp [detachQueue]
@[simp] theorem detachQueue_claims (k : Client) (s : State) (b : BusNo) :
    (detachQueue k s b).claims = s.claims := by simp [detachQueue]
@[simp] theorem detachQueue_batches (k : Client) (s : State) (b : BusNo) :
    (detachQueue k s b).batches = s.batches := by simp [detachQueue]
@[simp] theorem detachQueue_buses (k : Client) (s : State) (b : BusNo) :
    (detachQueue k s b).buses = s.buses := by simp [detachQueue]
@[simp] theorem detachQueue_outputs (k : Client) (s : State) (b : BusNo) :
    (detachQueue k s b).outputs = s.outputs := by simp [detachQueue]
@[simp] theorem detachQueue_host (k : Client) (s : State) (b : BusNo) :
    (detachQueue k s b).host = s.host := by simp [detachQueue]
@[simp] theorem detachQueue_events (k : Client) (s : State) (b : BusNo) :
    (detachQueue k s b).events = s.events := by simp [detachQueue]
@[simp] theorem detachQueue_draws (k : Client) (s : State) (b : BusNo) :
    (detachQueue k s b).draws = s.draws := by simp [detachQueue]
@[simp] theorem detachQueue_pending (k : Client) (s : State) (b : BusNo) :
    (detachQueue k s b).pending = s.pending := by simp [detachQueue]

@[simp] theorem resetQueueEntries_phase (s : State) :
    (resetQueueEntries s).phase = s.phase := by
  simp only [resetQueueEntries, State.setQueue_phase]
  exact foldl_same _ State.phase (fun _ _ => by simp) _ s
@[simp] theorem resetQueueEntries_slots (s : State) :
    (resetQueueEntries s).slots = s.slots := by
  simp only [resetQueueEntries, State.setQueue_slots]
  exact foldl_same _ State.slots (fun _ _ => by simp) _ s
@[simp] theorem resetQueueEntries_claims (s : State) :
    (resetQueueEntries s).claims = s.claims := by
  simp only [resetQueueEntries, State.setQueue_claims]
  exact foldl_same _ State.claims (fun _ _ => by simp) _ s
@[simp] theorem resetQueueEntries_batches (s : State) :
    (resetQueueEntries s).batches = s.batches := by
  simp only [resetQueueEntries, State.setQueue_batches]
  exact foldl_same _ State.batches (fun _ _ => by simp) _ s
@[simp] theorem resetQueueEntries_store (s : State) :
    (resetQueueEntries s).store = s.store := by
  simp only [resetQueueEntries, State.setQueue_store]
  exact foldl_same _ State.store (fun _ _ => by simp) _ s
@[simp] theorem resetQueueEntries_gen (s : State) :
    (resetQueueEntries s).gen = s.gen := by
  simp only [resetQueueEntries, State.setQueue_gen]
  exact foldl_same _ State.gen (fun _ _ => by simp) _ s
@[simp] theorem resetQueueEntries_buses (s : State) :
    (resetQueueEntries s).buses = s.buses := by
  simp only [resetQueueEntries, State.setQueue_buses]
  exact foldl_same _ State.buses (fun _ _ => by simp) _ s
@[simp] theorem resetQueueEntries_outputs (s : State) :
    (resetQueueEntries s).outputs = s.outputs := by
  simp only [resetQueueEntries, State.setQueue_outputs]
  exact foldl_same _ State.outputs (fun _ _ => by simp) _ s
@[simp] theorem resetQueueEntries_host (s : State) :
    (resetQueueEntries s).host = s.host := by
  simp only [resetQueueEntries, State.setQueue_host]
  exact foldl_same _ State.host (fun _ _ => by simp) _ s
@[simp] theorem resetQueueEntries_events (s : State) :
    (resetQueueEntries s).events = s.events := by
  simp only [resetQueueEntries, State.setQueue_events]
  exact foldl_same _ State.events (fun _ _ => by simp) _ s
@[simp] theorem resetQueueEntries_draws (s : State) :
    (resetQueueEntries s).draws = s.draws := by
  simp only [resetQueueEntries, State.setQueue_draws]
  exact foldl_same _ State.draws (fun _ _ => by simp) _ s
@[simp] theorem resetQueueEntries_pending (s : State) :
    (resetQueueEntries s).pending = s.pending := by
  simp only [resetQueueEntries, State.setQueue_pending]
  exact foldl_same _ State.pending (fun _ _ => by simp) _ s

/-! ### Outputs, the window and the run state -/

@[simp] theorem takePrograms_phase (s : State) :
    (takePrograms s).phase = s.phase := rfl
@[simp] theorem takePrograms_slots (s : State) :
    (takePrograms s).slots = s.slots := rfl
@[simp] theorem takePrograms_claims (s : State) :
    (takePrograms s).claims = s.claims := rfl
@[simp] theorem takePrograms_batches (s : State) :
    (takePrograms s).batches = s.batches := rfl
@[simp] theorem takePrograms_store (s : State) :
    (takePrograms s).store = s.store := rfl
@[simp] theorem takePrograms_gen (s : State) :
    (takePrograms s).gen = s.gen := rfl
@[simp] theorem takePrograms_queues (s : State) :
    (takePrograms s).queues = s.queues := rfl
@[simp] theorem takePrograms_buses (s : State) :
    (takePrograms s).buses = s.buses := rfl
@[simp] theorem takePrograms_host (s : State) :
    (takePrograms s).host = s.host := rfl
@[simp] theorem takePrograms_events (s : State) :
    (takePrograms s).events = s.events := rfl
@[simp] theorem takePrograms_draws (s : State) :
    (takePrograms s).draws = s.draws := rfl
@[simp] theorem takePrograms_pending (s : State) :
    (takePrograms s).pending = s.pending := rfl

@[simp] theorem outputsAtLine_phase (s : State) :
    (outputsAtLine s).phase = s.phase := rfl
@[simp] theorem outputsAtLine_slots (s : State) :
    (outputsAtLine s).slots = s.slots := rfl
@[simp] theorem outputsAtLine_claims (s : State) :
    (outputsAtLine s).claims = s.claims := rfl
@[simp] theorem outputsAtLine_batches (s : State) :
    (outputsAtLine s).batches = s.batches := rfl
@[simp] theorem outputsAtLine_store (s : State) :
    (outputsAtLine s).store = s.store := rfl
@[simp] theorem outputsAtLine_gen (s : State) :
    (outputsAtLine s).gen = s.gen := rfl
@[simp] theorem outputsAtLine_queues (s : State) :
    (outputsAtLine s).queues = s.queues := rfl
@[simp] theorem outputsAtLine_buses (s : State) :
    (outputsAtLine s).buses = s.buses := rfl
@[simp] theorem outputsAtLine_host (s : State) :
    (outputsAtLine s).host = s.host := rfl
@[simp] theorem outputsAtLine_events (s : State) :
    (outputsAtLine s).events = s.events := rfl
@[simp] theorem outputsAtLine_draws (s : State) :
    (outputsAtLine s).draws = s.draws := rfl
@[simp] theorem outputsAtLine_pending (s : State) :
    (outputsAtLine s).pending = s.pending := rfl

@[simp] theorem outputsInactive_phase (s : State) :
    (outputsInactive s).phase = s.phase := rfl
@[simp] theorem outputsInactive_slots (s : State) :
    (outputsInactive s).slots = s.slots := rfl
@[simp] theorem outputsInactive_claims (s : State) :
    (outputsInactive s).claims = s.claims := rfl
@[simp] theorem outputsInactive_batches (s : State) :
    (outputsInactive s).batches = s.batches := rfl
@[simp] theorem outputsInactive_store (s : State) :
    (outputsInactive s).store = s.store := rfl
@[simp] theorem outputsInactive_gen (s : State) :
    (outputsInactive s).gen = s.gen := rfl
@[simp] theorem outputsInactive_queues (s : State) :
    (outputsInactive s).queues = s.queues := rfl
@[simp] theorem outputsInactive_buses (s : State) :
    (outputsInactive s).buses = s.buses := rfl
@[simp] theorem outputsInactive_host (s : State) :
    (outputsInactive s).host = s.host := rfl
@[simp] theorem outputsInactive_events (s : State) :
    (outputsInactive s).events = s.events := rfl
@[simp] theorem outputsInactive_draws (s : State) :
    (outputsInactive s).draws = s.draws := rfl
@[simp] theorem outputsInactive_pending (s : State) :
    (outputsInactive s).pending = s.pending := rfl

@[simp] theorem advanceMarks_phase (s : State) :
    (advanceMarks s).phase = s.phase := rfl
@[simp] theorem advanceMarks_slots (s : State) :
    (advanceMarks s).slots = s.slots := rfl
@[simp] theorem advanceMarks_claims (s : State) :
    (advanceMarks s).claims = s.claims := rfl
@[simp] theorem advanceMarks_batches (s : State) :
    (advanceMarks s).batches = s.batches := rfl
@[simp] theorem advanceMarks_store (s : State) :
    (advanceMarks s).store = s.store := rfl
@[simp] theorem advanceMarks_gen (s : State) :
    (advanceMarks s).gen = s.gen := rfl
@[simp] theorem advanceMarks_queues (s : State) :
    (advanceMarks s).queues = s.queues := rfl
@[simp] theorem advanceMarks_buses (s : State) :
    (advanceMarks s).buses = s.buses := rfl
@[simp] theorem advanceMarks_outputs (s : State) :
    (advanceMarks s).outputs = s.outputs := rfl
@[simp] theorem advanceMarks_host (s : State) :
    (advanceMarks s).host = s.host := rfl
@[simp] theorem advanceMarks_draws (s : State) :
    (advanceMarks s).draws = s.draws := rfl
@[simp] theorem advanceMarks_pending (s : State) :
    (advanceMarks s).pending = s.pending := rfl

@[simp] theorem boundary_phase (w : Work) :
    (boundary w).st.phase = w.st.phase := by simp [boundary]
@[simp] theorem boundary_claims (w : Work) :
    (boundary w).st.claims = w.st.claims := by simp [boundary]
@[simp] theorem boundary_gen (w : Work) :
    (boundary w).st.gen = w.st.gen := by simp [boundary]
@[simp] theorem boundary_buses (w : Work) :
    (boundary w).st.buses = w.st.buses := by simp [boundary]
@[simp] theorem boundary_host (w : Work) :
    (boundary w).st.host = w.st.host := by simp [boundary]
@[simp] theorem boundary_pending (w : Work) :
    (boundary w).st.pending = w.st.pending := by simp [boundary]

@[simp] theorem beginEpoch_phase (c : Epoch) (s : State) :
    (beginEpoch c s).phase = s.phase := rfl
@[simp] theorem beginEpoch_slots (c : Epoch) (s : State) :
    (beginEpoch c s).slots = s.slots := rfl
@[simp] theorem beginEpoch_claims (c : Epoch) (s : State) :
    (beginEpoch c s).claims = s.claims := rfl
@[simp] theorem beginEpoch_batches (c : Epoch) (s : State) :
    (beginEpoch c s).batches = s.batches := rfl
@[simp] theorem beginEpoch_store (c : Epoch) (s : State) :
    (beginEpoch c s).store = s.store := rfl
@[simp] theorem beginEpoch_queues (c : Epoch) (s : State) :
    (beginEpoch c s).queues = s.queues := rfl
@[simp] theorem beginEpoch_buses (c : Epoch) (s : State) :
    (beginEpoch c s).buses = s.buses := rfl
@[simp] theorem beginEpoch_outputs (c : Epoch) (s : State) :
    (beginEpoch c s).outputs = s.outputs := rfl
@[simp] theorem beginEpoch_host (c : Epoch) (s : State) :
    (beginEpoch c s).host = s.host := rfl
@[simp] theorem beginEpoch_events (c : Epoch) (s : State) :
    (beginEpoch c s).events = s.events := rfl
@[simp] theorem beginEpoch_draws (c : Epoch) (s : State) :
    (beginEpoch c s).draws = s.draws := rfl
@[simp] theorem beginEpoch_pending (c : Epoch) (s : State) :
    (beginEpoch c s).pending = s.pending := rfl

@[simp] theorem startEpochNow_phase (c : Epoch) (w : Work) :
    (startEpochNow c w).st.phase = w.st.phase := by simp [startEpochNow]
@[simp] theorem startEpochNow_claims (c : Epoch) (w : Work) :
    (startEpochNow c w).st.claims = w.st.claims := by simp [startEpochNow]
@[simp] theorem startEpochNow_buses (c : Epoch) (w : Work) :
    (startEpochNow c w).st.buses = w.st.buses := by simp [startEpochNow]
@[simp] theorem startEpochNow_host (c : Epoch) (w : Work) :
    (startEpochNow c w).st.host = w.st.host := by simp [startEpochNow]
@[simp] theorem startEpochNow_pending (c : Epoch) (w : Work) :
    (startEpochNow c w).st.pending = w.st.pending := by simp [startEpochNow]

@[simp] theorem waitForTrigger_phase (s : State) :
    (waitForTrigger s).phase = s.phase := rfl
@[simp] theorem waitForTrigger_slots (s : State) :
    (waitForTrigger s).slots = s.slots := rfl
@[simp] theorem waitForTrigger_claims (s : State) :
    (waitForTrigger s).claims = s.claims := rfl
@[simp] theorem waitForTrigger_batches (s : State) :
    (waitForTrigger s).batches = s.batches := rfl
@[simp] theorem waitForTrigger_store (s : State) :
    (waitForTrigger s).store = s.store := rfl
@[simp] theorem waitForTrigger_queues (s : State) :
    (waitForTrigger s).queues = s.queues := rfl
@[simp] theorem waitForTrigger_buses (s : State) :
    (waitForTrigger s).buses = s.buses := rfl
@[simp] theorem waitForTrigger_host (s : State) :
    (waitForTrigger s).host = s.host := rfl
@[simp] theorem waitForTrigger_events (s : State) :
    (waitForTrigger s).events = s.events := rfl
@[simp] theorem waitForTrigger_draws (s : State) :
    (waitForTrigger s).draws = s.draws := rfl
@[simp] theorem waitForTrigger_pending (s : State) :
    (waitForTrigger s).pending = s.pending := rfl

@[simp] theorem handWindowOpen_phase (s : State) :
    (handWindowOpen s).phase = s.phase := rfl
@[simp] theorem handWindowOpen_slots (s : State) :
    (handWindowOpen s).slots = s.slots := rfl
@[simp] theorem handWindowOpen_claims (s : State) :
    (handWindowOpen s).claims = s.claims := rfl
@[simp] theorem handWindowOpen_batches (s : State) :
    (handWindowOpen s).batches = s.batches := rfl
@[simp] theorem handWindowOpen_store (s : State) :
    (handWindowOpen s).store = s.store := rfl
@[simp] theorem handWindowOpen_queues (s : State) :
    (handWindowOpen s).queues = s.queues := rfl
@[simp] theorem handWindowOpen_buses (s : State) :
    (handWindowOpen s).buses = s.buses := rfl
@[simp] theorem handWindowOpen_outputs (s : State) :
    (handWindowOpen s).outputs = s.outputs := rfl
@[simp] theorem handWindowOpen_host (s : State) :
    (handWindowOpen s).host = s.host := rfl
@[simp] theorem handWindowOpen_events (s : State) :
    (handWindowOpen s).events = s.events := rfl
@[simp] theorem handWindowOpen_draws (s : State) :
    (handWindowOpen s).draws = s.draws := rfl
@[simp] theorem handWindowOpen_pending (s : State) :
    (handWindowOpen s).pending = s.pending := rfl

@[simp] theorem handWindowClose_phase (s : State) :
    (handWindowClose s).phase = s.phase := rfl
@[simp] theorem handWindowClose_slots (s : State) :
    (handWindowClose s).slots = s.slots := rfl
@[simp] theorem handWindowClose_claims (s : State) :
    (handWindowClose s).claims = s.claims := rfl
@[simp] theorem handWindowClose_batches (s : State) :
    (handWindowClose s).batches = s.batches := rfl
@[simp] theorem handWindowClose_store (s : State) :
    (handWindowClose s).store = s.store := rfl
@[simp] theorem handWindowClose_buses (s : State) :
    (handWindowClose s).buses = s.buses := rfl
@[simp] theorem handWindowClose_outputs (s : State) :
    (handWindowClose s).outputs = s.outputs := rfl
@[simp] theorem handWindowClose_host (s : State) :
    (handWindowClose s).host = s.host := rfl
@[simp] theorem handWindowClose_events (s : State) :
    (handWindowClose s).events = s.events := rfl
@[simp] theorem handWindowClose_draws (s : State) :
    (handWindowClose s).draws = s.draws := rfl
@[simp] theorem handWindowClose_pending (s : State) :
    (handWindowClose s).pending = s.pending := rfl

@[simp] theorem settleWindow_phase (s : State) :
    (settleWindow s).phase = s.phase := by unfold settleWindow; dsimp only; split <;> split <;> simp
@[simp] theorem settleWindow_slots (s : State) :
    (settleWindow s).slots = s.slots := by unfold settleWindow; dsimp only; split <;> split <;> simp
@[simp] theorem settleWindow_claims (s : State) :
    (settleWindow s).claims = s.claims := by unfold settleWindow; dsimp only; split <;> split <;> simp
@[simp] theorem settleWindow_batches (s : State) :
    (settleWindow s).batches = s.batches := by unfold settleWindow; dsimp only; split <;> split <;> simp
@[simp] theorem settleWindow_store (s : State) :
    (settleWindow s).store = s.store := by unfold settleWindow; dsimp only; split <;> split <;> simp
@[simp] theorem settleWindow_buses (s : State) :
    (settleWindow s).buses = s.buses := by unfold settleWindow; dsimp only; split <;> split <;> simp
@[simp] theorem settleWindow_outputs (s : State) :
    (settleWindow s).outputs = s.outputs := by unfold settleWindow; dsimp only; split <;> split <;> simp
@[simp] theorem settleWindow_host (s : State) :
    (settleWindow s).host = s.host := by unfold settleWindow; dsimp only; split <;> split <;> simp
@[simp] theorem settleWindow_events (s : State) :
    (settleWindow s).events = s.events := by unfold settleWindow; dsimp only; split <;> split <;> simp
@[simp] theorem settleWindow_draws (s : State) :
    (settleWindow s).draws = s.draws := by unfold settleWindow; dsimp only; split <;> split <;> simp
@[simp] theorem settleWindow_pending (s : State) :
    (settleWindow s).pending = s.pending := by unfold settleWindow; dsimp only; split <;> split <;> simp

@[simp] theorem setIssuer_phase (k : Option Client) (s : State) :
    (setIssuer k s).phase = s.phase := rfl
@[simp] theorem setIssuer_slots (k : Option Client) (s : State) :
    (setIssuer k s).slots = s.slots := rfl
@[simp] theorem setIssuer_claims (k : Option Client) (s : State) :
    (setIssuer k s).claims = s.claims := rfl
@[simp] theorem setIssuer_batches (k : Option Client) (s : State) :
    (setIssuer k s).batches = s.batches := rfl
@[simp] theorem setIssuer_store (k : Option Client) (s : State) :
    (setIssuer k s).store = s.store := rfl
@[simp] theorem setIssuer_queues (k : Option Client) (s : State) :
    (setIssuer k s).queues = s.queues := rfl
@[simp] theorem setIssuer_buses (k : Option Client) (s : State) :
    (setIssuer k s).buses = s.buses := rfl
@[simp] theorem setIssuer_outputs (k : Option Client) (s : State) :
    (setIssuer k s).outputs = s.outputs := rfl
@[simp] theorem setIssuer_host (k : Option Client) (s : State) :
    (setIssuer k s).host = s.host := rfl
@[simp] theorem setIssuer_events (k : Option Client) (s : State) :
    (setIssuer k s).events = s.events := rfl
@[simp] theorem setIssuer_draws (k : Option Client) (s : State) :
    (setIssuer k s).draws = s.draws := rfl
@[simp] theorem setIssuer_pending (k : Option Client) (s : State) :
    (setIssuer k s).pending = s.pending := rfl

@[simp] theorem clearPrimes_phase (s : State) :
    (clearPrimes s).phase = s.phase := rfl
@[simp] theorem clearPrimes_slots (s : State) :
    (clearPrimes s).slots = s.slots := rfl
@[simp] theorem clearPrimes_claims (s : State) :
    (clearPrimes s).claims = s.claims := rfl
@[simp] theorem clearPrimes_batches (s : State) :
    (clearPrimes s).batches = s.batches := rfl
@[simp] theorem clearPrimes_store (s : State) :
    (clearPrimes s).store = s.store := rfl
@[simp] theorem clearPrimes_queues (s : State) :
    (clearPrimes s).queues = s.queues := rfl
@[simp] theorem clearPrimes_buses (s : State) :
    (clearPrimes s).buses = s.buses := rfl
@[simp] theorem clearPrimes_outputs (s : State) :
    (clearPrimes s).outputs = s.outputs := rfl
@[simp] theorem clearPrimes_host (s : State) :
    (clearPrimes s).host = s.host := rfl
@[simp] theorem clearPrimes_events (s : State) :
    (clearPrimes s).events = s.events := rfl
@[simp] theorem clearPrimes_draws (s : State) :
    (clearPrimes s).draws = s.draws := rfl
@[simp] theorem clearPrimes_pending (s : State) :
    (clearPrimes s).pending = s.pending := rfl

@[simp] theorem enterStopped_phase (s : State) :
    (enterStopped s).phase = s.phase := by unfold enterStopped; dsimp only; split <;> simp
@[simp] theorem enterStopped_slots (s : State) :
    (enterStopped s).slots = s.slots := by unfold enterStopped; dsimp only; split <;> simp
@[simp] theorem enterStopped_claims (s : State) :
    (enterStopped s).claims = s.claims := by unfold enterStopped; dsimp only; split <;> simp
@[simp] theorem enterStopped_batches (s : State) :
    (enterStopped s).batches = s.batches := by unfold enterStopped; dsimp only; split <;> simp
@[simp] theorem enterStopped_store (s : State) :
    (enterStopped s).store = s.store := by unfold enterStopped; dsimp only; split <;> simp
@[simp] theorem enterStopped_buses (s : State) :
    (enterStopped s).buses = s.buses := by unfold enterStopped; dsimp only; split <;> simp
@[simp] theorem enterStopped_host (s : State) :
    (enterStopped s).host = s.host := by unfold enterStopped; dsimp only; split <;> simp
@[simp] theorem enterStopped_events (s : State) :
    (enterStopped s).events = s.events := by unfold enterStopped; dsimp only; split <;> simp
@[simp] theorem enterStopped_draws (s : State) :
    (enterStopped s).draws = s.draws := by unfold enterStopped; dsimp only; split <;> simp
@[simp] theorem enterStopped_pending (s : State) :
    (enterStopped s).pending = s.pending := by unfold enterStopped; dsimp only; split <;> simp

@[simp] theorem reportPrimed_phase (w : Work) :
    (reportPrimed w).st.phase = w.st.phase := by simp [reportPrimed]
@[simp] theorem reportPrimed_slots (w : Work) :
    (reportPrimed w).st.slots = w.st.slots := by simp [reportPrimed]
@[simp] theorem reportPrimed_claims (w : Work) :
    (reportPrimed w).st.claims = w.st.claims := by simp [reportPrimed]
@[simp] theorem reportPrimed_batches (w : Work) :
    (reportPrimed w).st.batches = w.st.batches := by simp [reportPrimed]
@[simp] theorem reportPrimed_store (w : Work) :
    (reportPrimed w).st.store = w.st.store := by simp [reportPrimed]
@[simp] theorem reportPrimed_queues (w : Work) :
    (reportPrimed w).st.queues = w.st.queues := by simp [reportPrimed]
@[simp] theorem reportPrimed_buses (w : Work) :
    (reportPrimed w).st.buses = w.st.buses := by simp [reportPrimed]
@[simp] theorem reportPrimed_outputs (w : Work) :
    (reportPrimed w).st.outputs = w.st.outputs := by simp [reportPrimed]
@[simp] theorem reportPrimed_host (w : Work) :
    (reportPrimed w).st.host = w.st.host := by simp [reportPrimed]
@[simp] theorem reportPrimed_events (w : Work) :
    (reportPrimed w).st.events = w.st.events := by simp [reportPrimed]
@[simp] theorem reportPrimed_draws (w : Work) :
    (reportPrimed w).st.draws = w.st.draws := by simp [reportPrimed]
@[simp] theorem reportPrimed_pending (w : Work) :
    (reportPrimed w).st.pending = w.st.pending := by simp [reportPrimed]

@[simp] theorem closePriming_phase (w : Work) :
    (closePriming w).st.phase = w.st.phase := by unfold closePriming; dsimp only; split <;> simp
@[simp] theorem closePriming_slots (w : Work) :
    (closePriming w).st.slots = w.st.slots := by unfold closePriming; dsimp only; split <;> simp
@[simp] theorem closePriming_claims (w : Work) :
    (closePriming w).st.claims = w.st.claims := by unfold closePriming; dsimp only; split <;> simp
@[simp] theorem closePriming_queues (w : Work) :
    (closePriming w).st.queues = w.st.queues := by unfold closePriming; dsimp only; split <;> simp
@[simp] theorem closePriming_buses (w : Work) :
    (closePriming w).st.buses = w.st.buses := by unfold closePriming; dsimp only; split <;> simp
@[simp] theorem closePriming_host (w : Work) :
    (closePriming w).st.host = w.st.host := by unfold closePriming; dsimp only; split <;> simp
@[simp] theorem closePriming_events (w : Work) :
    (closePriming w).st.events = w.st.events := by unfold closePriming; dsimp only; split <;> simp
@[simp] theorem closePriming_draws (w : Work) :
    (closePriming w).st.draws = w.st.draws := by unfold closePriming; dsimp only; split <;> simp
@[simp] theorem closePriming_pending (w : Work) :
    (closePriming w).st.pending = w.st.pending := by unfold closePriming; dsimp only; split <;> simp

@[simp] theorem beginFirstEpoch_phase (w : Work) :
    (beginFirstEpoch w).st.phase = w.st.phase := by simp [beginFirstEpoch]
@[simp] theorem beginFirstEpoch_claims (w : Work) :
    (beginFirstEpoch w).st.claims = w.st.claims := by simp [beginFirstEpoch]
@[simp] theorem beginFirstEpoch_buses (w : Work) :
    (beginFirstEpoch w).st.buses = w.st.buses := by simp [beginFirstEpoch]
@[simp] theorem beginFirstEpoch_host (w : Work) :
    (beginFirstEpoch w).st.host = w.st.host := by simp [beginFirstEpoch]
@[simp] theorem beginFirstEpoch_pending (w : Work) :
    (beginFirstEpoch w).st.pending = w.st.pending := by simp [beginFirstEpoch]

@[simp] theorem endPriming_phase (w : Work) :
    (endPriming w).st.phase = w.st.phase := by unfold endPriming; dsimp only; split <;> simp
@[simp] theorem endPriming_claims (w : Work) :
    (endPriming w).st.claims = w.st.claims := by unfold endPriming; dsimp only; split <;> simp
@[simp] theorem endPriming_buses (w : Work) :
    (endPriming w).st.buses = w.st.buses := by unfold endPriming; dsimp only; split <;> simp
@[simp] theorem endPriming_host (w : Work) :
    (endPriming w).st.host = w.st.host := by unfold endPriming; dsimp only; split <;> simp
@[simp] theorem endPriming_pending (w : Work) :
    (endPriming w).st.pending = w.st.pending := by unfold endPriming; dsimp only; split <;> simp

@[simp] theorem countPrime_phase (w : Work) :
    (countPrime w).st.phase = w.st.phase := by unfold countPrime; dsimp only; split <;> simp
@[simp] theorem countPrime_slots (w : Work) :
    (countPrime w).st.slots = w.st.slots := by unfold countPrime; dsimp only; split <;> simp
@[simp] theorem countPrime_claims (w : Work) :
    (countPrime w).st.claims = w.st.claims := by unfold countPrime; dsimp only; split <;> simp
@[simp] theorem countPrime_queues (w : Work) :
    (countPrime w).st.queues = w.st.queues := by unfold countPrime; dsimp only; split <;> simp
@[simp] theorem countPrime_buses (w : Work) :
    (countPrime w).st.buses = w.st.buses := by unfold countPrime; dsimp only; split <;> simp
@[simp] theorem countPrime_host (w : Work) :
    (countPrime w).st.host = w.st.host := by unfold countPrime; dsimp only; split <;> simp
@[simp] theorem countPrime_events (w : Work) :
    (countPrime w).st.events = w.st.events := by unfold countPrime; dsimp only; split <;> simp
@[simp] theorem countPrime_draws (w : Work) :
    (countPrime w).st.draws = w.st.draws := by unfold countPrime; dsimp only; split <;> simp
@[simp] theorem countPrime_pending (w : Work) :
    (countPrime w).st.pending = w.st.pending := by unfold countPrime; dsimp only; split <;> simp

@[simp] theorem failPriming_phase (i : SlotNo) (w : Work) :
    (failPriming i w).st.phase = w.st.phase := by unfold failPriming; dsimp only; split <;> simp
@[simp] theorem failPriming_slots (i : SlotNo) (w : Work) :
    (failPriming i w).st.slots = w.st.slots := by unfold failPriming; dsimp only; split <;> simp
@[simp] theorem failPriming_claims (i : SlotNo) (w : Work) :
    (failPriming i w).st.claims = w.st.claims := by unfold failPriming; dsimp only; split <;> simp
@[simp] theorem failPriming_batches (i : SlotNo) (w : Work) :
    (failPriming i w).st.batches = w.st.batches := by unfold failPriming; dsimp only; split <;> simp
@[simp] theorem failPriming_buses (i : SlotNo) (w : Work) :
    (failPriming i w).st.buses = w.st.buses := by unfold failPriming; dsimp only; split <;> simp
@[simp] theorem failPriming_host (i : SlotNo) (w : Work) :
    (failPriming i w).st.host = w.st.host := by unfold failPriming; dsimp only; split <;> simp
@[simp] theorem failPriming_events (i : SlotNo) (w : Work) :
    (failPriming i w).st.events = w.st.events := by unfold failPriming; dsimp only; split <;> simp
@[simp] theorem failPriming_draws (i : SlotNo) (w : Work) :
    (failPriming i w).st.draws = w.st.draws := by unfold failPriming; dsimp only; split <;> simp
@[simp] theorem failPriming_pending (i : SlotNo) (w : Work) :
    (failPriming i w).st.pending = w.st.pending := by unfold failPriming; dsimp only; split <;> simp

/-! ### The end of a transfer -/

@[simp] theorem endWrite_phase (e : Entry) (done : Bool) (w : Work) :
    (endWrite e done w).st.phase = w.st.phase := by unfold endWrite; dsimp only; split <;> simp
@[simp] theorem endWrite_claims (e : Entry) (done : Bool) (w : Work) :
    (endWrite e done w).st.claims = w.st.claims := by unfold endWrite; dsimp only; split <;> simp
@[simp] theorem endWrite_gen (e : Entry) (done : Bool) (w : Work) :
    (endWrite e done w).st.gen = w.st.gen := by unfold endWrite; dsimp only; split <;> simp
@[simp] theorem endWrite_queues (e : Entry) (done : Bool) (w : Work) :
    (endWrite e done w).st.queues = w.st.queues := by unfold endWrite; dsimp only; split <;> simp
@[simp] theorem endWrite_buses (e : Entry) (done : Bool) (w : Work) :
    (endWrite e done w).st.buses = w.st.buses := by unfold endWrite; dsimp only; split <;> simp
@[simp] theorem endWrite_outputs (e : Entry) (done : Bool) (w : Work) :
    (endWrite e done w).st.outputs = w.st.outputs := by unfold endWrite; dsimp only; split <;> simp
@[simp] theorem endWrite_host (e : Entry) (done : Bool) (w : Work) :
    (endWrite e done w).st.host = w.st.host := by unfold endWrite; dsimp only; split <;> simp
@[simp] theorem endWrite_events (e : Entry) (done : Bool) (w : Work) :
    (endWrite e done w).st.events = w.st.events := by unfold endWrite; dsimp only; split <;> simp
@[simp] theorem endWrite_draws (e : Entry) (done : Bool) (w : Work) :
    (endWrite e done w).st.draws = w.st.draws := by unfold endWrite; dsimp only; split <;> simp
@[simp] theorem endWrite_pending (e : Entry) (done : Bool) (w : Work) :
    (endWrite e done w).st.pending = w.st.pending := by unfold endWrite; dsimp only; split <;> simp

@[simp] theorem endNow_phase (e : Entry) (done : Bool) (w : Work) :
    (endNow e done w).st.phase = w.st.phase := by
  unfold endNow; dsimp only; split
  · split <;> simp
  · simp
@[simp] theorem endNow_claims (e : Entry) (done : Bool) (w : Work) :
    (endNow e done w).st.claims = w.st.claims := by
  unfold endNow; dsimp only; split
  · split <;> simp
  · simp
@[simp] theorem endNow_batches (e : Entry) (done : Bool) (w : Work) :
    (endNow e done w).st.batches = w.st.batches := by
  unfold endNow; dsimp only; split
  · split <;> simp
  · simp
@[simp] theorem endNow_store (e : Entry) (done : Bool) (w : Work) :
    (endNow e done w).st.store = w.st.store := by
  unfold endNow; dsimp only; split
  · split <;> simp
  · simp
@[simp] theorem endNow_gen (e : Entry) (done : Bool) (w : Work) :
    (endNow e done w).st.gen = w.st.gen := by
  unfold endNow; dsimp only; split
  · split <;> simp
  · simp
@[simp] theorem endNow_queues (e : Entry) (done : Bool) (w : Work) :
    (endNow e done w).st.queues = w.st.queues := by
  unfold endNow; dsimp only; split
  · split <;> simp
  · simp
@[simp] theorem endNow_buses (e : Entry) (done : Bool) (w : Work) :
    (endNow e done w).st.buses = w.st.buses := by
  unfold endNow; dsimp only; split
  · split <;> simp
  · simp
@[simp] theorem endNow_outputs (e : Entry) (done : Bool) (w : Work) :
    (endNow e done w).st.outputs = w.st.outputs := by
  unfold endNow; dsimp only; split
  · split <;> simp
  · simp
@[simp] theorem endNow_host (e : Entry) (done : Bool) (w : Work) :
    (endNow e done w).st.host = w.st.host := by
  unfold endNow; dsimp only; split
  · split <;> simp
  · simp
@[simp] theorem endNow_events (e : Entry) (done : Bool) (w : Work) :
    (endNow e done w).st.events = w.st.events := by
  unfold endNow; dsimp only; split
  · split <;> simp
  · simp
@[simp] theorem endNow_draws (e : Entry) (done : Bool) (w : Work) :
    (endNow e done w).st.draws = w.st.draws := by
  unfold endNow; dsimp only; split
  · split <;> simp
  · simp
@[simp] theorem endNow_pending (e : Entry) (done : Bool) (w : Work) :
    (endNow e done w).st.pending = w.st.pending := by
  unfold endNow; dsimp only; split
  · split <;> simp
  · simp

@[simp] theorem endPrime_phase (e : Entry) (done : Bool) (w : Work) :
    (endPrime e done w).st.phase = w.st.phase := by
  unfold endPrime; dsimp only; split
  · split
    · split <;> simp
    · split <;> simp
  · simp
@[simp] theorem endPrime_claims (e : Entry) (done : Bool) (w : Work) :
    (endPrime e done w).st.claims = w.st.claims := by
  unfold endPrime; dsimp only; split
  · split
    · split <;> simp
    · split <;> simp
  · simp
@[simp] theorem endPrime_buses (e : Entry) (done : Bool) (w : Work) :
    (endPrime e done w).st.buses = w.st.buses := by
  unfold endPrime; dsimp only; split
  · split
    · split <;> simp
    · split <;> simp
  · simp
@[simp] theorem endPrime_host (e : Entry) (done : Bool) (w : Work) :
    (endPrime e done w).st.host = w.st.host := by
  unfold endPrime; dsimp only; split
  · split
    · split <;> simp
    · split <;> simp
  · simp
@[simp] theorem endPrime_events (e : Entry) (done : Bool) (w : Work) :
    (endPrime e done w).st.events = w.st.events := by
  unfold endPrime; dsimp only; split
  · split
    · split <;> simp
    · split <;> simp
  · simp
@[simp] theorem endPrime_draws (e : Entry) (done : Bool) (w : Work) :
    (endPrime e done w).st.draws = w.st.draws := by
  unfold endPrime; dsimp only; split
  · split
    · split <;> simp
    · split <;> simp
  · simp
@[simp] theorem endPrime_pending (e : Entry) (done : Bool) (w : Work) :
    (endPrime e done w).st.pending = w.st.pending := by
  unfold endPrime; dsimp only; split
  · split
    · split <;> simp
    · split <;> simp
  · simp

@[simp] theorem endProbe_phase (e : Entry) (done : Bool) (bytes : List Byte) (w : Work) :
    (endProbe e done bytes w).st.phase = w.st.phase := by
  unfold endProbe; split
  · dsimp only; split
    · simp
    · split <;> simp
  · rfl
@[simp] theorem endProbe_slots (e : Entry) (done : Bool) (bytes : List Byte) (w : Work) :
    (endProbe e done bytes w).st.slots = w.st.slots := by
  unfold endProbe; split
  · dsimp only; split
    · simp
    · split <;> simp
  · rfl
@[simp] theorem endProbe_claims (e : Entry) (done : Bool) (bytes : List Byte) (w : Work) :
    (endProbe e done bytes w).st.claims = w.st.claims := by
  unfold endProbe; split
  · dsimp only; split
    · simp
    · split <;> simp
  · rfl
@[simp] theorem endProbe_batches (e : Entry) (done : Bool) (bytes : List Byte) (w : Work) :
    (endProbe e done bytes w).st.batches = w.st.batches := by
  unfold endProbe; split
  · dsimp only; split
    · simp
    · split <;> simp
  · rfl
@[simp] theorem endProbe_store (e : Entry) (done : Bool) (bytes : List Byte) (w : Work) :
    (endProbe e done bytes w).st.store = w.st.store := by
  unfold endProbe; split
  · dsimp only; split
    · simp
    · split <;> simp
  · rfl
@[simp] theorem endProbe_gen (e : Entry) (done : Bool) (bytes : List Byte) (w : Work) :
    (endProbe e done bytes w).st.gen = w.st.gen := by
  unfold endProbe; split
  · dsimp only; split
    · simp
    · split <;> simp
  · rfl
@[simp] theorem endProbe_buses (e : Entry) (done : Bool) (bytes : List Byte) (w : Work) :
    (endProbe e done bytes w).st.buses = w.st.buses := by
  unfold endProbe; split
  · dsimp only; split
    · simp
    · split <;> simp
  · rfl
@[simp] theorem endProbe_outputs (e : Entry) (done : Bool) (bytes : List Byte) (w : Work) :
    (endProbe e done bytes w).st.outputs = w.st.outputs := by
  unfold endProbe; split
  · dsimp only; split
    · simp
    · split <;> simp
  · rfl
@[simp] theorem endProbe_host (e : Entry) (done : Bool) (bytes : List Byte) (w : Work) :
    (endProbe e done bytes w).st.host = w.st.host := by
  unfold endProbe; split
  · dsimp only; split
    · simp
    · split <;> simp
  · rfl
@[simp] theorem endProbe_events (e : Entry) (done : Bool) (bytes : List Byte) (w : Work) :
    (endProbe e done bytes w).st.events = w.st.events := by
  unfold endProbe; split
  · dsimp only; split
    · simp
    · split <;> simp
  · rfl
@[simp] theorem endProbe_draws (e : Entry) (done : Bool) (bytes : List Byte) (w : Work) :
    (endProbe e done bytes w).st.draws = w.st.draws := by
  unfold endProbe; split
  · dsimp only; split
    · simp
    · split <;> simp
  · rfl
@[simp] theorem endProbe_pending (e : Entry) (done : Bool) (bytes : List Byte) (w : Work) :
    (endProbe e done bytes w).st.pending = w.st.pending := by
  unfold endProbe; split
  · dsimp only; split
    · simp
    · split <;> simp
  · rfl

@[simp] theorem handOn_phase (e : Entry) (done : Bool) (bytes : List Byte) (w : Work) :
    (handOn e done bytes w).st.phase = w.st.phase := by unfold handOn; split <;> simp
@[simp] theorem handOn_claims (e : Entry) (done : Bool) (bytes : List Byte) (w : Work) :
    (handOn e done bytes w).st.claims = w.st.claims := by unfold handOn; split <;> simp
@[simp] theorem handOn_buses (e : Entry) (done : Bool) (bytes : List Byte) (w : Work) :
    (handOn e done bytes w).st.buses = w.st.buses := by unfold handOn; split <;> simp
@[simp] theorem handOn_host (e : Entry) (done : Bool) (bytes : List Byte) (w : Work) :
    (handOn e done bytes w).st.host = w.st.host := by unfold handOn; split <;> simp
@[simp] theorem handOn_events (e : Entry) (done : Bool) (bytes : List Byte) (w : Work) :
    (handOn e done bytes w).st.events = w.st.events := by unfold handOn; split <;> simp
@[simp] theorem handOn_draws (e : Entry) (done : Bool) (bytes : List Byte) (w : Work) :
    (handOn e done bytes w).st.draws = w.st.draws := by unfold handOn; split <;> simp
@[simp] theorem handOn_pending (e : Entry) (done : Bool) (bytes : List Byte) (w : Work) :
    (handOn e done bytes w).st.pending = w.st.pending := by unfold handOn; split <;> simp

@[simp] theorem endEntries_phase (b : BusNo) (done : Bool) (bytes : List Byte) (n : Nat) (w : Work) :
    (endEntries b done bytes n w).st.phase = w.st.phase := by
  induction n generalizing w with
  | zero => rfl
  | succ n ih =>
    unfold endEntries; split
    · rfl
    · simp [ih]
@[simp] theorem endEntries_claims (b : BusNo) (done : Bool) (bytes : List Byte) (n : Nat) (w : Work) :
    (endEntries b done bytes n w).st.claims = w.st.claims := by
  induction n generalizing w with
  | zero => rfl
  | succ n ih =>
    unfold endEntries; split
    · rfl
    · simp [ih]
@[simp] theorem endEntries_buses (b : BusNo) (done : Bool) (bytes : List Byte) (n : Nat) (w : Work) :
    (endEntries b done bytes n w).st.buses = w.st.buses := by
  induction n generalizing w with
  | zero => rfl
  | succ n ih =>
    unfold endEntries; split
    · rfl
    · simp [ih]
@[simp] theorem endEntries_host (b : BusNo) (done : Bool) (bytes : List Byte) (n : Nat) (w : Work) :
    (endEntries b done bytes n w).st.host = w.st.host := by
  induction n generalizing w with
  | zero => rfl
  | succ n ih =>
    unfold endEntries; split
    · rfl
    · simp [ih]
@[simp] theorem endEntries_events (b : BusNo) (done : Bool) (bytes : List Byte) (n : Nat) (w : Work) :
    (endEntries b done bytes n w).st.events = w.st.events := by
  induction n generalizing w with
  | zero => rfl
  | succ n ih =>
    unfold endEntries; split
    · rfl
    · simp [ih]
@[simp] theorem endEntries_draws (b : BusNo) (done : Bool) (bytes : List Byte) (n : Nat) (w : Work) :
    (endEntries b done bytes n w).st.draws = w.st.draws := by
  induction n generalizing w with
  | zero => rfl
  | succ n ih =>
    unfold endEntries; split
    · rfl
    · simp [ih]
@[simp] theorem endEntries_pending (b : BusNo) (done : Bool) (bytes : List Byte) (n : Nat) (w : Work) :
    (endEntries b done bytes n w).st.pending = w.st.pending := by
  induction n generalizing w with
  | zero => rfl
  | succ n ih =>
    unfold endEntries; split
    · rfl
    · simp [ih]

@[simp] theorem endTransfer_phase (b : BusNo) (done : Bool) (bytes : List Byte) (next : EngineState) (w : Work) :
    (endTransfer b done bytes next w).st.phase = w.st.phase := by unfold endTransfer; dsimp only; split <;> simp
@[simp] theorem endTransfer_claims (b : BusNo) (done : Bool) (bytes : List Byte) (next : EngineState) (w : Work) :
    (endTransfer b done bytes next w).st.claims = w.st.claims := by unfold endTransfer; dsimp only; split <;> simp
@[simp] theorem endTransfer_host (b : BusNo) (done : Bool) (bytes : List Byte) (next : EngineState) (w : Work) :
    (endTransfer b done bytes next w).st.host = w.st.host := by unfold endTransfer; dsimp only; split <;> simp
@[simp] theorem endTransfer_pending (b : BusNo) (done : Bool) (bytes : List Byte) (next : EngineState) (w : Work) :
    (endTransfer b done bytes next w).st.pending = w.st.pending := by unfold endTransfer; dsimp only; split <;> simp

@[simp] theorem putOnWires_phase (b : BusNo) (items : List WireItem) (s : State) :
    (putOnWires b items s).phase = s.phase := rfl
@[simp] theorem putOnWires_slots (b : BusNo) (items : List WireItem) (s : State) :
    (putOnWires b items s).slots = s.slots := rfl
@[simp] theorem putOnWires_claims (b : BusNo) (items : List WireItem) (s : State) :
    (putOnWires b items s).claims = s.claims := rfl
@[simp] theorem putOnWires_batches (b : BusNo) (items : List WireItem) (s : State) :
    (putOnWires b items s).batches = s.batches := rfl
@[simp] theorem putOnWires_store (b : BusNo) (items : List WireItem) (s : State) :
    (putOnWires b items s).store = s.store := rfl
@[simp] theorem putOnWires_gen (b : BusNo) (items : List WireItem) (s : State) :
    (putOnWires b items s).gen = s.gen := rfl
@[simp] theorem putOnWires_queues (b : BusNo) (items : List WireItem) (s : State) :
    (putOnWires b items s).queues = s.queues := rfl
@[simp] theorem putOnWires_outputs (b : BusNo) (items : List WireItem) (s : State) :
    (putOnWires b items s).outputs = s.outputs := rfl
@[simp] theorem putOnWires_host (b : BusNo) (items : List WireItem) (s : State) :
    (putOnWires b items s).host = s.host := rfl
@[simp] theorem putOnWires_events (b : BusNo) (items : List WireItem) (s : State) :
    (putOnWires b items s).events = s.events := rfl
@[simp] theorem putOnWires_draws (b : BusNo) (items : List WireItem) (s : State) :
    (putOnWires b items s).draws = s.draws := rfl
@[simp] theorem putOnWires_pending (b : BusNo) (items : List WireItem) (s : State) :
    (putOnWires b items s).pending = s.pending := rfl

@[simp] theorem noteAttempts_phase (b : BusNo) (s : State) :
    (noteAttempts b s).phase = s.phase := by unfold noteAttempts; split <;> simp
@[simp] theorem noteAttempts_slots (b : BusNo) (s : State) :
    (noteAttempts b s).slots = s.slots := by unfold noteAttempts; split <;> simp
@[simp] theorem noteAttempts_claims (b : BusNo) (s : State) :
    (noteAttempts b s).claims = s.claims := by unfold noteAttempts; split <;> simp
@[simp] theorem noteAttempts_batches (b : BusNo) (s : State) :
    (noteAttempts b s).batches = s.batches := by unfold noteAttempts; split <;> simp
@[simp] theorem noteAttempts_store (b : BusNo) (s : State) :
    (noteAttempts b s).store = s.store := by unfold noteAttempts; split <;> simp
@[simp] theorem noteAttempts_gen (b : BusNo) (s : State) :
    (noteAttempts b s).gen = s.gen := by unfold noteAttempts; split <;> simp
@[simp] theorem noteAttempts_buses (b : BusNo) (s : State) :
    (noteAttempts b s).buses = s.buses := by unfold noteAttempts; split <;> simp
@[simp] theorem noteAttempts_outputs (b : BusNo) (s : State) :
    (noteAttempts b s).outputs = s.outputs := by unfold noteAttempts; split <;> simp
@[simp] theorem noteAttempts_host (b : BusNo) (s : State) :
    (noteAttempts b s).host = s.host := by unfold noteAttempts; split <;> simp
@[simp] theorem noteAttempts_events (b : BusNo) (s : State) :
    (noteAttempts b s).events = s.events := by unfold noteAttempts; split <;> simp
@[simp] theorem noteAttempts_draws (b : BusNo) (s : State) :
    (noteAttempts b s).draws = s.draws := by unfold noteAttempts; split <;> simp
@[simp] theorem noteAttempts_pending (b : BusNo) (s : State) :
    (noteAttempts b s).pending = s.pending := by unfold noteAttempts; split <;> simp

@[simp] theorem retryOrFail_phase (b : BusNo) (t : Transfer) (low : Bool) (w : Work) :
    (retryOrFail b t low w).st.phase = w.st.phase := by unfold retryOrFail; split <;> simp
@[simp] theorem retryOrFail_claims (b : BusNo) (t : Transfer) (low : Bool) (w : Work) :
    (retryOrFail b t low w).st.claims = w.st.claims := by unfold retryOrFail; split <;> simp
@[simp] theorem retryOrFail_host (b : BusNo) (t : Transfer) (low : Bool) (w : Work) :
    (retryOrFail b t low w).st.host = w.st.host := by unfold retryOrFail; split <;> simp
@[simp] theorem retryOrFail_pending (b : BusNo) (t : Transfer) (low : Bool) (w : Work) :
    (retryOrFail b t low w).st.pending = w.st.pending := by unfold retryOrFail; split <;> simp

@[simp] theorem enterFault_phase (b : BusNo) (w : Work) :
    (enterFault b w).st.phase = w.st.phase := by unfold enterFault; dsimp only; split <;> simp
@[simp] theorem enterFault_claims (b : BusNo) (w : Work) :
    (enterFault b w).st.claims = w.st.claims := by unfold enterFault; dsimp only; split <;> simp
@[simp] theorem enterFault_host (b : BusNo) (w : Work) :
    (enterFault b w).st.host = w.st.host := by unfold enterFault; dsimp only; split <;> simp
@[simp] theorem enterFault_pending (b : BusNo) (w : Work) :
    (enterFault b w).st.pending = w.st.pending := by unfold enterFault; dsimp only; split <;> simp

end Sys2Proof.Machine
end

