-- ==== Sys2Proof/Laws/Requests.lean ====
section
/-! SUPPORT. What the shared operations of requests do: serving, arriving, granting, ending a service,
and delivering event records. -/

set_option Elab.async false

namespace Sys2Proof.Machine

open Sys2Proof

/-- A request that is in service is served, and its service ends. -/
theorem request_inService {k : Client} {i : Instr} {s : State} (body : Service)
    (h : InService k i s) :
    request k i body s = endService k (tagOf i) (codeOf i) (body s).2 (body s).1.finish := by
  obtain ⟨hp, hs, hr⟩ := h
  have hserving : s.serving k i = true := by simp [State.serving, hs, hr]
  simp [request, whenOperating, hp, arrive, hserving, serviceOf, tagOf, codeOf]

/-- Outside operation a request changes nothing. -/
theorem request_notOperating {k : Client} {i : Instr} {s : State} (body : Service)
    (h : s.phase ≠ .operating) : request k i body s = s := by
  simp [request, whenOperating, h]

/-- A request is served in the state in which its message has arrived, if the arbiter has it in
service there, and otherwise waits in that state. -/
theorem request_operating {k : Client} {i : Instr} {s : State} (body : Service)
    (h : s.phase = .operating) :
    request k i body s =
      if (arrive k i s).serving k i then serviceOf k i body (arrive k i s) else arrive k i s := by
  simp [request, whenOperating, h]

/-- With the token, a token request is judged by its own rule. -/
theorem withToken_held {k : Client} {s : State} (body : Service)
    (h : s.claims.token = some k) : withToken k body s = body s := by
  simp [withToken, h]

/-- Without the token, it is refused. -/
theorem withToken_missing {k : Client} {s : State} (body : Service)
    (h : s.claims.token ≠ some k) : withToken k body s = refuse s .noToken := by
  simp [withToken, h]

@[simp] theorem refuse_finish (s : State) (status : Status) (payload : List Byte) :
    (refuse s status payload).1.finish = s := rfl

@[simp] theorem refuse_reply (s : State) (status : Status) (payload : List Byte) :
    (refuse s status payload).2 = ⟨status, payload⟩ := rfl

@[simp] theorem answer_work (w : Work) (status : Status) (payload : List Byte) :
    (answer w status payload).1 = w := rfl

@[simp] theorem answer_reply (w : Work) (status : Status) (payload : List Byte) :
    (answer w status payload).2 = ⟨status, payload⟩ := rfl

@[simp] theorem begin_finish (s : State) : (begin s).finish = s := rfl

@[simp] theorem deliver_nil (s : State) : deliver s [] = s := rfl

theorem deliver_cons (s : State) (o : Offer) (out : List Offer) :
    deliver s (o :: out) = deliver (deliverOne s o) out := rfl

theorem deliver_append (s : State) (a b : List Offer) :
    deliver s (a ++ b) = deliver (deliver s a) b := List.foldl_append

/-- Offering to the clients with a property appends one record for each, in the order 0 to 3. -/
theorem offerWhere_out (p : Client → EventQueue → Bool) (e : Event) (w : Work) :
    (offerWhere p e w).out = w.out ++ offersTo (fun k => p k (w.st.eventQueue k)) w.st e := by
  have general : ∀ (l : List Client) (v : Work),
      (l.foldl (fun w k => offerTo k e w) v).out =
        v.out ++ l.map (fun j => { client := j, stamp := v.st.gen.c, event := e }) := by
    intro l
    induction l with
    | nil => simp
    | cons j l ih =>
      intro v
      rw [List.foldl_cons, ih]
      simp [offerTo]
  simp only [offerWhere, general, offersTo, allClients]

/-- R106: the records of a report. -/
theorem reportSchedule_out (r : Reason) (cause : Option Client) (w : Work) :
    (reportSchedule r cause w).out = w.out ++
      offersTo (fun k => (w.st.eventQueue k).sched || cause == some k) w.st
        (.scheduleState w.st.gen.run w.st.gen.mode r cause w.st.gen.c) := by
  simp [reportSchedule, offerWhere_out]

/-- R138, R139: the records of a bus report. -/
theorem reportBus_out (b : BusNo) (f : Bool) (requester : Option Client) (w : Work) :
    (reportBus b f requester w).out = w.out ++
      offersTo (fun k => (w.st.eventQueue k).bus || requester == some k) w.st
        (.busFault b f) := by
  simp [reportBus, offerWhere_out]

/-- R163: a grant goes to a waiting port and moves the pointer past it, or nothing changes. -/
theorem grantNext_cases (s : State) :
    grantNext s = s ∨ ∃ k, s.host.inService = none ∧ s.isWaiting k = true ∧
      grantNext s = { s with host := { s.host with pointer := k + 1, inService := some k } } := by
  unfold grantNext
  split
  · rename_i k hs hf
    refine .inr ⟨k, hs, ?_, rfl⟩
    exact List.find?_some hf
  · exact .inl rfl

/-- The grant touches no port. -/
@[simp] theorem grantNext_port (s : State) (j : Client) : (grantNext s).port j = s.port j := by
  obtain h | ⟨k, -, -, h⟩ := grantNext_cases s
  · rw [h]
  · rw [h]; rfl

/-- R163: the port whose service ends. -/
theorem endService_port (k : Client) (tag code : Byte) (reply : Reply) (s : State) (j : Client) :
    (endService k tag code reply s).port j =
      if k = j then { s.port k with
        state := .ready, request := none, response := responseBytes reply tag code }
      else s.port j := by
  simp only [endService, grantNext_port]
  exact State.setPort_port _ _ _ _

/-- R167: what one offer makes of its client's queue; the others stay. -/
theorem deliverOne_eventQueue (s : State) (o : Offer) (j : Client) :
    (deliverOne s o).eventQueue j =
      if o.client = j then (s.eventQueue o.client).take o.stamp o.event else s.eventQueue j :=
  State.setEventQueue_eventQueue _ _ _ _

/-- R167: a kept or lost record leaves the subscriptions and the mark counter alone. -/
theorem EventQueue.take_subscriptions (q : EventQueue) (c : Epoch) (e : Event) :
    (q.take c e).sched = q.sched ∧ (q.take c e).bus = q.bus ∧ (q.take c e).mark = q.mark ∧
      (q.take c e).divider = q.divider ∧ (q.take c e).counter = q.counter := by
  unfold EventQueue.take
  split <;> simp

/-- R109: what an append does to the queues. -/
theorem append_queue (b : BusNo) (e : Entry) (s : State) (c : BusNo) :
    (append b e s).queue c =
      if b = c ∧ (s.queue b).length < 32 then s.queue b ++ [e] else s.queue c := by
  unfold append State.hasRoom Config.queueDepth
  by_cases h : (s.queue b).length < 32 <;> simp [h, State.setQueue_queue]

end Sys2Proof.Machine
end

