-- ==== Sys2Proof/Laws/Operations.lean ====
section
/-! SUPPORT. What the shared operations of records, entries, leases and messages can do, once each; and
how a law is carried through a fold, a request and a step. -/

set_option Elab.async false

namespace Sys2Proof.Machine

open Sys2Proof

/-! ### Carrying a law -/

/-- A law that one round keeps is kept by a fold. -/
theorem foldl_keeps {α β : Type} (P : β → Prop) (f : β → α → β)
    (h : ∀ b a, P b → P (f b a)) : ∀ (l : List α) (b : β), P b → P (l.foldl f b)
  | [], _, hb => hb
  | a :: l, b, hb => foldl_keeps P f h l (f b a) (h b a hb)

/-- A law that one offer keeps is kept when an event's records reach the queues. -/
theorem deliver_keeps (P : State → Prop) (h : ∀ s o, P s → P (deliverOne s o)) (s : State)
    (out : List Offer) (hs : P s) : P (deliver s out) :=
  foldl_keeps P deliverOne h out s hs

/-- A law that looks at neither the waiting commands nor more than `exec` keeps is kept by every
step. -/
theorem keptByEveryStep_of_exec {inv : State → Prop}
    (hq : ∀ (s : State) (l : List Instr), inv s → inv { s with pending := l })
    (he : ∀ (i : Instr) (s t : State), inv s → exec i s = .next t → inv t) :
    KeptByEveryStep inv := by
  intro s t hs ht
  unfold step at ht
  split at ht
  · cases ht; exact hs
  · exact he _ _ _ (hq _ _ hs) ht

/-- A law of the tables is kept when a message ends at a port, when neither a port, nor a lease reload,
nor a grant can break it. -/
theorem messageEnds_keeps {inv : State → Prop} {k : Client} {via : Carrier} {bytes : List Byte}
    {later : Bool} (hport : ∀ s j p, inv s → inv (s.setPort j p))
    (hlease : ∀ s j, inv s → inv (reloadLease j s)) (hgrant : ∀ s, inv s → inv (grantNext s))
    {s : State} (hs : inv s) : inv (messageEnds k via bytes later s) := by
  have htake : ∀ l s, inv s → inv (takeMessage k l later s) := by
    intro l s hs
    unfold takeMessage
    dsimp only
    split
    · exact hport _ _ _ hs
    · exact hport _ _ _ hs
    · split
      · exact hport _ _ _ hs
      · exact hgrant _ (hport _ _ _ hs)
  have hend : ∀ l taken s, inv s → inv (endMessage k l taken later s) := by
    intro l taken s hs
    unfold endMessage
    split
    · exact htake _ _ (hlease _ _ hs)
    · exact hlease _ _ hs
  unfold messageEnds
  dsimp only
  split
  · exact hs
  · split
    · exact hport _ _ _ hs
    · split
      · exact hlease _ _ (hport _ _ _ hs)
      · exact hend _ _ _ (hport _ _ _ hs)
    · exact hend _ _ _ (hport _ _ _ hs)

/-- A law of the tables is kept by a request when its rule keeps it, and when neither a port, nor a
lease reload, nor the arbiter, nor an offer can break it. -/
theorem request_keeps {inv : State → Prop} {k : Client} {i : Instr} {body : Service}
    (hport : ∀ s j p, inv s → inv (s.setPort j p)) (hlease : ∀ s j, inv s → inv (reloadLease j s))
    (hhost : ∀ (s : State) (p : Client) (j : Option Client), inv s →
      inv { s with host := { s.host with pointer := p, inService := j } })
    (hoffer : ∀ s o, inv s → inv (deliverOne s o))
    (hbody : ∀ s, inv s → inv (body s).1.st) {s : State} (hs : inv s) :
    inv (request k i body s) := by
  have hgrant : ∀ s, inv s → inv (grantNext s) := by
    intro s hs
    obtain h | ⟨j, -, -, h⟩ := grantNext_cases s
    · rw [h]; exact hs
    · rw [h]; exact hhost s _ _ hs
  have harrive : inv (arrive k i s) := by
    unfold arrive
    split
    · exact hs
    · split
      · exact hgrant _ hs
      · split
        · exact hs
        · exact messageEnds_keeps hport hlease hgrant hs
  unfold request whenOperating
  split
  · dsimp only
    split
    · unfold serviceOf endService
      dsimp only
      apply hgrant
      exact hhost _ _ none (hport _ _ _ (deliver_keeps inv hoffer _ _ (hbody _ harrive)))
    · exact harrive
  · exact hs

/-! ### Records and batches (R51, R52, R76) -/

/-- R109: a queue has room for 32 entries. -/
theorem hasRoom_iff (s : State) (b : BusNo) : s.hasRoom b = true ↔ (s.queue b).length < 32 :=
  decide_eq_true_iff

/-- R52, R76: an outcome is counted in the sealed batch of its record, which completes at 0
unresolved; without such a batch nothing is counted. -/
theorem countOutcome_cases (r : BatchRef) (o : RecordOutcome) (w : Work) :
    (w.st.sealedContext r = none ∧ countOutcome r o w = w) ∨
      ∃ (n : Fin 4) (b : Batch), w.st.sealedContext r = some n ∧
        b = (w.st.context r.client n).tally o ∧
        (b.unresolved = 0 ∧ countOutcome r o w = completeBatch r n b b.outcome w ∨
          b.unresolved ≠ 0 ∧ countOutcome r o w = w.update (·.setContext r.client n b)) := by
  unfold countOutcome
  split
  · exact .inl ⟨‹_›, rfl⟩
  · rename_i n hn
    refine .inr ⟨n, _, hn, rfl, ?_⟩
    dsimp only
    split
    · exact .inl ⟨‹_›, rfl⟩
    · exact .inr ⟨‹_›, rfl⟩

/-- R111, R112: either no WAITING WRITE or NOW entry for the slot is on the queue, or the first of them
leaves it and its origin is told. -/
theorem supersede_cases (b : BusNo) (i : SlotNo) (w : Work) :
    ((w.st.queue b).find? (·.waitsFor i) = none ∧ supersede b i w = w) ∨
      ∃ e : Entry, (w.st.queue b).find? (·.waitsFor i) = some e ∧ e.waitsFor i = true ∧
        supersede b i w = tellSuperseded e i
          (w.update (fun s => s.setQueue b ((s.queue b).eraseP (·.waitsFor i)))) := by
  unfold supersede
  split
  · exact .inl ⟨‹_›, rfl⟩
  · rename_i e he
    exact .inr ⟨e, he, List.find?_some (p := fun x : Entry => x.waitsFor i) he, rfl⟩

/-- R73, R74: one refill appends the record's WRITE entry and makes the record RELEASED, or changes
nothing. -/
theorem refillOne_cases (b : BusNo) (s : State) (x : PendingRecord) :
    refillOne b s x = s ∨ ∃ d : DeviceNo, (s.slot x.slot).device = some d ∧
      (s.queue b).length < 32 ∧
      refillOne b s x = setRecordState x .released
        (s.setQueue b (s.queue b ++
          [writeEntry (s.slot x.slot) d x (s.gen.lateOnRefill x.dispatch)])) := by
  unfold refillOne
  split
  · exact .inl rfl
  · rename_i d hd
    by_cases h : s.hasRoom b = true
    · refine .inr ⟨d, hd, ?_, ?_⟩
      · exact (hasRoom_iff _ _).mp h
      · simp [append, h]
    · exact .inl (by simp [h])

/-- R97: one slot of the prime list is placed at the tail of its bus's queue and leaves the list, or
nothing changes. -/
theorem placePrime_cases (s : State) (i : SlotNo) :
    placePrime s i = s ∨ ∃ (d : DeviceNo) (b : BusNo), (s.slot i).device = some d ∧
      b = (s.device d).bus ∧ (s.queue b).length < 32 ∧
      placePrime s i =
        (s.setQueue b (s.queue b ++
          [slotEntry .prime i (s.slot i) d (s.slot i).live .priming])).setGen
        { s.gen with primeList := s.gen.primeList.filter (· != i) } := by
  unfold placePrime
  split
  · exact .inl rfl
  · rename_i d hd
    by_cases h : s.hasRoom (s.device d).bus = true
    · refine .inr ⟨d, _, hd, rfl, ?_, ?_⟩
      · exact (hasRoom_iff _ _).mp h
      · simp [append, h]
    · exact .inl (by simp [h])

/-- R71, R72: a downstream record's older DEFERRED record and waiting entry are superseded; then its
WRITE entry is appended and it is RELEASED, or on a full queue it is DEFERRED. -/
theorem releaseDownstream_cases (x : PendingRecord) (d : DeviceNo) (w : Work) :
    ∃ (b : BusNo) (v : Work), b = (w.st.device d).bus ∧
      v = supersede b x.slot (supersedeDeferred x.slot w) ∧
      ((v.st.queue b).length < 32 ∧
        releaseDownstream x d w = v.update (fun s =>
          setRecordState x .released
            (s.setQueue b (s.queue b ++ [writeEntry (s.slot x.slot) d x false]))) ∨
        32 ≤ (v.st.queue b).length ∧
        releaseDownstream x d w =
          v.update (setRecordState x .deferred)) := by
  refine ⟨_, _, rfl, rfl, ?_⟩
  unfold releaseDownstream
  dsimp only
  split
  · rename_i h
    refine .inl ⟨(hasRoom_iff _ _).mp h, ?_⟩
    simp only [Work.update, append, h, if_true]
  · rename_i h
    exact .inr ⟨Nat.le_of_not_lt (fun g => h ((hasRoom_iff _ _).mpr g)), rfl⟩

/-- R119: one entry leaves the head of the queue, its result is handed on, and its place is filled. -/
theorem endEntries_cons (b : BusNo) (done : Bool) (bytes : List Byte) (n : Nat) (w : Work) (e : Entry)
    (rest : List Entry) (h : w.st.queue b = e :: rest) :
    endEntries b done bytes (n + 1) w = endEntries b done bytes n
      ((handOn e done bytes (w.update (·.setQueue b rest))).update (fillPlaces b)) := by
  simp only [endEntries, h]

/-- R98, R120: in FREE mode the entry that ends priming leaves epoch S to begin; in TRIGGERED mode the
generator waits and the end is reported. -/
theorem closePriming_cases (w : Work) :
    ∃ v : Work, v = (dropStale w.st.gen.startEpoch w).update clearPrimes ∧
      (v.st.gen.mode = .free ∧ closePriming w = v ∨
        v.st.gen.mode = .triggered ∧ closePriming w = reportPrimed
          (v.update fun s => waitForTrigger (s.setGen { s.gen with c := s.gen.startEpoch - 1 }))) := by
  refine ⟨_, rfl, ?_⟩
  unfold closePriming
  dsimp only
  split
  · exact .inl ⟨‹_›, rfl⟩
  · exact .inr ⟨‹_›, rfl⟩

/-- R120: what a DONE prime entry makes of the count, by what is left of it. -/
theorem countPrime_cases (w : Work) :
    ∃ v : Work, v = w.update (fun s => s.setGen
        { s.gen with primesOutstanding := s.gen.primesOutstanding - 1 }) ∧
      (v.st.gen.primesOutstanding = 0 ∧ countPrime w = closePriming v ∨
        v.st.gen.primesOutstanding ≠ 0 ∧ countPrime w = v) := by
  refine ⟨_, rfl, ?_⟩
  unfold countPrime
  dsimp only
  split
  · exact .inl ⟨‹_›, rfl⟩
  · exact .inr ⟨‹_›, rfl⟩

/-- R135: the wires take the attempt as far as the byte that is not acknowledged, and a STOP. -/
theorem cutAfter_append (n : Nat) (front back : List WireItem) (byte : Byte)
    (h : front.countP (·.isSend) = n) :
    cutAfter n (front ++ .send byte :: back) = front ++ [.send byte, .stop] := by
  induction front generalizing n with
  | nil => subst h; rfl
  | cons x front ih =>
    cases x with
    | send b =>
      cases n with
      | zero => simp [WireItem.isSend] at h
      | succ n =>
        have h' : front.countP (·.isSend) = n := by
          simpa [WireItem.isSend] using h
        simp [cutAfter, ih n h']
    | start | repeatedStart | stop | pulse =>
      have h' : front.countP (·.isSend) = n := by simpa [WireItem.isSend] using h
      cases n <;> simp [cutAfter, ih _ h']
    | receive a =>
      have h' : front.countP (·.isSend) = n := by simpa [WireItem.isSend] using h
      cases n <;> simp [cutAfter, ih _ h']

/-! ### Leases and messages (R30, R31, R160, R161) -/

/-- R30, R31: the tick leaves a lease that does not run, counts one down, or makes it lapse. -/
theorem tickLease_cases (w : Work) (k : Client) :
    (((w.st.lease k).setting = 0 ∨ (w.st.lease k).counter = 0) ∧ tickLease w k = w) ∨
      ∃ v : Work, v = w.update (·.setLease k
          { w.st.lease k with counter := (w.st.lease k).counter - 1 }) ∧
        ((w.st.lease k).counter = 1 ∧ tickLease w k = lapse k v ∨
          2 ≤ (w.st.lease k).counter ∧ tickLease w k = v) := by
  unfold tickLease
  dsimp only
  split
  · exact .inl ⟨‹_›, rfl⟩
  · rename_i h
    refine .inr ⟨_, rfl, ?_⟩
    split
    · exact .inl ⟨‹_›, rfl⟩
    · exact .inr ⟨by omega, rfl⟩

/-- R29, R160, R161: the end of a message reloads the lease; a READY port that takes it answers a parse
refusal or becomes WORKING, after which the arbiter may grant. -/
theorem endMessage_cases (k : Client) (bytes : List Byte) (taken later : Bool) (s : State) :
    ((taken = false ∨ (s.port k).state = .working) ∧
        endMessage k bytes taken later s = reloadLease k s) ∨
      (taken = true ∧ (s.port k).state = .ready ∧
        (parseRefusal bytes = some .badCode ∧ endMessage k bytes taken later s =
            (reloadLease k s).setPort k { s.port k with
              response := responseBytes { status := .badCode } (bytes.getD 1 0) (bytes.getD 0 0) } ∨
          parseRefusal bytes = some .badLength ∧ endMessage k bytes taken later s =
            (reloadLease k s).setPort k { s.port k with
              response :=
                responseBytes { status := .badLength } (bytes.getD 1 0) (bytes.getD 0 0) } ∨
          parseRefusal bytes = none ∧ ∃ t : State, t = (reloadLease k s).setPort k { s.port k with
              state := .working, request := some bytes,
              response :=
                responseBytes { status := .working } (bytes.getD 1 0) (bytes.getD 0 0) } ∧
            endMessage k bytes taken later s = if later then t else grantNext t)) := by
  have hp : (reloadLease k s).port k = s.port k := rfl
  unfold endMessage
  cases taken
  · exact .inl ⟨.inl rfl, by simp⟩
  · cases hs : (s.port k).state
    · refine .inr ⟨rfl, rfl, ?_⟩
      simp only [takeMessage, hp, Bool.true_and, beq_self_eq_true, if_true]
      cases parseRefusal bytes with
      | none => exact .inr (.inr ⟨rfl, _, rfl, by simp⟩)
      | some r => cases r <;> simp [hs]
    · exact .inl ⟨.inr rfl, by simp⟩

/-! ### Refill -/

/-- R68: two records agree but for their states exactly when one is the other in some state. -/
theorem PendingRecord.sameAs_iff (x y : PendingRecord) :
    x.sameAs y = true ↔ { y with state := x.state } = x := by
  simp [PendingRecord.sameAs]

/-- R68: agreement looks at no state. -/
theorem PendingRecord.sameAs_state (x y : PendingRecord) (st : RecordState) :
    x.sameAs { y with state := st } = x.sameAs y := rfl

/-- R63, R64: among distinct records, only the record itself agrees with it. -/
theorem PendingRecord.eq_of_sameAs {x y : PendingRecord} : ∀ {l : List PendingRecord},
    l.Pairwise (fun x y => (x.slot ≠ y.slot ∨ x.target ≠ y.target) ∧
      (x.batch ≠ y.batch ∨ x.position ≠ y.position)) →
    x ∈ l → y ∈ l → x.sameAs y = true → y = x
  | z :: l, h, hx, hy, e => by
    have e' := (PendingRecord.sameAs_iff x y).mp e
    have hs : y.slot = x.slot := by rw [← e']
    have ht : y.target = x.target := by rw [← e']
    rw [List.pairwise_cons] at h
    rw [List.mem_cons] at hx hy
    rcases hx with rfl | hx <;> rcases hy with rfl | hy
    · rfl
    · exact absurd (h.1 y hy).1 (by simp [hs, ht])
    · exact absurd (h.1 x hx).1 (by simp [hs, ht])
    · exact eq_of_sameAs h.2 hx hy e

/-- R73, R74: on a full queue nothing enters. -/
theorem refillOne_full (b : BusNo) (s : State) (x : PendingRecord)
    (h : 32 ≤ (s.queue b).length) : refillOne b s x = s := by
  rcases refillOne_cases b s x with g | ⟨_, _, g, _⟩
  · exact g
  · omega

/-- R73, R74: a deferred record enters a queue that has a place. -/
theorem refillOne_room (b : BusNo) (s : State) (x : PendingRecord)
    (hd : (s.slot x.slot).device.isSome = true) (h : (s.queue b).length < 32) :
    refillOne b s x = setRecordState x .released
      (s.setQueue b (s.queue b ++ [refillEntryFor s x])) := by
  obtain ⟨d, hd⟩ := Option.isSome_iff_exists.mp hd
  have hr : s.hasRoom b = true := (hasRoom_iff s b).mpr h
  have hl : s.gen.lateOnRefill x.dispatch =
      decide (¬ (s.gen.run.inEpoch = true ∧ s.gen.c = x.dispatch ∧ s.gen.window ≠ .closed)) := by
    unfold Generator.lateOnRefill
    by_cases h1 : s.gen.run.inEpoch = true <;> by_cases h2 : s.gen.c = x.dispatch <;>
      by_cases h3 : s.gen.window = .closed <;> simp [h1, h2, h3]
  simp [refillOne, hd, append, hr, writeEntry, slotEntry, refillEntryFor, writeEntryFor, hl]

/-- R73: deferred records enter while places are free, in their order; those that enter are RELEASED. -/
theorem refillAll (b : BusNo) : ∀ (l : List PendingRecord) (s t : State)
    (taken : List PendingRecord), (∀ x ∈ l, (s.slot x.slot).device.isSome = true) →
    taken = l.take (32 - (s.queue b).length) → t = l.foldl (refillOne b) s →
    t.queue b = s.queue b ++ taken.map (refillEntryFor s) ∧
    (∀ c : BusNo, b ≠ c → t.queue c = s.queue c) ∧ t.queues.probes = s.queues.probes ∧
    t.store = s.store.map (fun y =>
      if taken.any (·.sameAs y) then { y with state := .released } else y)
  | [], s, t, taken, _, hk, ht => by subst ht hk; simp
  | x :: l, s, t, taken, hd, hk, ht => by
    by_cases h : (s.queue b).length < 32
    · have e := refillOne_room b s x (hd x (by simp)) h
      generalize hu : refillOne b s x = u at e
      have hq : u.queue b = s.queue b ++ [refillEntryFor s x] := by
        rw [e]; exact (State.setQueue_queue ..).trans (if_pos rfl)
      have hf : ∀ y, refillEntryFor u y = refillEntryFor s y := by intro y; rw [e]; rfl
      have hn : 32 - (s.queue b).length = (32 - (u.queue b).length) + 1 := by
        rw [hq, List.length_append]; simp; omega
      obtain ⟨h1, h2, h3, h4⟩ := refillAll b l u t _
        (fun y hy => by
          have := hd y (by simp [hy])
          rw [e]; exact this) rfl (by rw [ht, List.foldl_cons, hu])
      have hk' : taken = x :: l.take (32 - (u.queue b).length) := by
        rw [hk, hn, List.take_succ_cons]
      refine ⟨?_, ?_, ?_, ?_⟩
      · rw [h1, hk', funext hf]
        generalize List.take (32 - (u.queue b).length) l = rest
        rw [hq, List.append_assoc]; rfl
      · intro c hc
        rw [h2 c hc, e]
        exact (State.setQueue_queue ..).trans (if_neg hc)
      · rw [h3, e]; rfl
      · have hs : u.store = s.store.map (fun y =>
            if x.sameAs y then { y with state := .released } else y) := by rw [e]; rfl
        rw [h4, hs, hk', List.map_map]
        refine List.map_congr_left fun y _ => ?_
        by_cases g : x.sameAs y = true <;> simp [g, PendingRecord.sameAs_state]
    · have e : 32 - (s.queue b).length = 0 := by omega
      have hf := refillOne_full b s x (by omega)
      have ih := refillAll b l s t _ (fun y hy => hd y (by simp [hy])) rfl
        (by rw [ht, List.foldl_cons, hf])
      simpa [hk, e] using ih

/-- R73: a record of bus `b`'s deferred set has a device. -/
theorem deferredSet_device {s : State} {b : BusNo} {x : PendingRecord}
    (h : x ∈ s.deferredSet b) : x ∈ s.store ∧ (s.slot x.slot).device.isSome = true := by
  simp only [State.deferredSet, List.mem_filter, Bool.and_eq_true, beq_iff_eq, State.slotBus] at h
  obtain ⟨hs, -, hb⟩ := h
  cases hd : (s.slot x.slot).device with
  | none => simp [hd] at hb
  | some d => exact ⟨hs, rfl⟩

/-- R73, R74: refill, on the queue, the store and nothing else of the queues. -/
theorem refill_spec (b : BusNo) (s : State) :
    (refill b s).queue b =
      s.queue b ++ (enteringBehind s b (s.queue b)).map (refillEntryFor s) ∧
    (∀ c : BusNo, b ≠ c → (refill b s).queue c = s.queue c) ∧
    (refill b s).queues.probes = s.queues.probes ∧
    (RecordsDistinct s →
      (refill b s).store = withReleased (enteringBehind s b (s.queue b)) s.store) := by
  obtain ⟨h1, h2, h3, h4⟩ := refillAll b (s.deferredSet b) s (refill b s) _
    (fun x hx => (deferredSet_device hx).2) rfl rfl
  rw [← enteringBehind] at h1 h4
  refine ⟨h1, h2, h3, fun hr => ?_⟩
  rw [h4]
  refine List.map_congr_left fun y hy => ?_
  have : (enteringBehind s b (s.queue b)).any (·.sameAs y) = true ↔
      y ∈ enteringBehind s b (s.queue b) := by
    rw [List.any_eq_true]
    constructor
    · rintro ⟨x, hx, e⟩
      have := PendingRecord.eq_of_sameAs hr (deferredSet_device (List.mem_of_mem_take hx)).1 hy e
      exact this ▸ hx
    · intro h
      exact ⟨y, h, (PendingRecord.sameAs_iff y y).mpr rfl⟩
  by_cases g : y ∈ enteringBehind s b (s.queue b)
  · rw [if_pos (this.mpr g), if_pos g]
  · rw [if_neg (fun h => g (this.mp h)), if_neg g]

/-! ### Ports -/

/-- R158: a port drives its data line exactly in a four-wire frame. -/
theorem Port.dataOut_eq_driven (p : Port) :
    p.dataOut = .driven ↔ p.lock = .fourWire ∧ p.frame.isSome = true := by
  unfold Port.dataOut
  cases p.lock <;> cases p.frame <;> simp

/-- R158: the end of a frame releases the port's data line. -/
theorem Port.endTransaction_dataOut (p : Port) (bits : Fin 8) (n : Nat) :
    (p.endTransaction (.fourWire bits) n).dataOut = .released := by
  unfold Port.endTransaction Port.dataOut
  cases p.lock <;> rfl

end Sys2Proof.Machine
end

