-- ==== Sys2Proof/Laws/PerInstr.lean ====
section
/-! SUPPORT. The family of laws `Message`, one lemma for each command: the message of a well-formed
request passes the port's checks (R174) and fits the request buffer; an event has no message. -/

set_option Elab.async false

namespace Sys2Proof.Laws.Message

open Sys2Proof

/-- What is said of each command. -/
def Statement (i : Instr) : Prop :=
  i.wf = true →
    match requestClient i with
    | some _ => parseRefusal (messageOf i) = none ∧ 2 ≤ (messageOf i).length ∧
        (messageOf i).length ≤ 36
    | none => messageOf i = []

theorem defineSlot (client : Client) (tag slot device : Byte) (register : Half)
    (format kind : Byte) (min max initial : Value) :
    Statement (.defineSlot client tag slot device register format kind min max initial) :=
  fun _ => ⟨rfl, Nat.le_of_ble_eq_true rfl, Nat.le_of_ble_eq_true rfl⟩

theorem undefineSlot (client : Client) (tag slot : Byte) :
    Statement (.undefineSlot client tag slot) :=
  fun _ => ⟨rfl, Nat.le_of_ble_eq_true rfl, Nat.le_of_ble_eq_true rfl⟩

theorem readSlot (client : Client) (tag slot : Byte) :
    Statement (.readSlot client tag slot) :=
  fun _ => ⟨rfl, Nat.le_of_ble_eq_true rfl, Nat.le_of_ble_eq_true rfl⟩

theorem writeNow (client : Client) (tag slot : Byte) (value : Value) :
    Statement (.writeNow client tag slot value) :=
  fun _ => ⟨rfl, Nat.le_of_ble_eq_true rfl, Nat.le_of_ble_eq_true rfl⟩

theorem claim (client : Client) (tag first count : Byte) :
    Statement (.claim client tag first count) :=
  fun _ => ⟨rfl, Nat.le_of_ble_eq_true rfl, Nat.le_of_ble_eq_true rfl⟩

theorem release (client : Client) (tag first count : Byte) :
    Statement (.release client tag first count) :=
  fun _ => ⟨rfl, Nat.le_of_ble_eq_true rfl, Nat.le_of_ble_eq_true rfl⟩

theorem claimSchedule (client : Client) (tag : Byte) :
    Statement (.claimSchedule client tag) :=
  fun _ => ⟨rfl, Nat.le_of_ble_eq_true rfl, Nat.le_of_ble_eq_true rfl⟩

theorem releaseSchedule (client : Client) (tag : Byte) :
    Statement (.releaseSchedule client tag) :=
  fun _ => ⟨rfl, Nat.le_of_ble_eq_true rfl, Nat.le_of_ble_eq_true rfl⟩

theorem revoke (client : Client) (tag named : Byte) :
    Statement (.revoke client tag named) :=
  fun _ => ⟨rfl, Nat.le_of_ble_eq_true rfl, Nat.le_of_ble_eq_true rfl⟩

theorem setLease (client : Client) (tag : Byte) (setting : Half) :
    Statement (.setLease client tag setting) :=
  fun _ => ⟨rfl, Nat.le_of_ble_eq_true rfl, Nat.le_of_ble_eq_true rfl⟩

theorem openBatch (client : Client) (tag target policy : Byte) (epoch : Half) :
    Statement (.openBatch client tag target policy epoch) :=
  fun _ => ⟨rfl, Nat.le_of_ble_eq_true rfl, Nat.le_of_ble_eq_true rfl⟩

theorem stage (client : Client) (tag slot : Byte) (value : Value) :
    Statement (.stage client tag slot value) :=
  fun _ => ⟨rfl, Nat.le_of_ble_eq_true rfl, Nat.le_of_ble_eq_true rfl⟩

theorem stageRun (client : Client) (tag first count : Byte) (values : List Value) :
    Statement (.stageRun client tag first count values) := by
  intro h
  have hlen : (values.flatMap valueBytes).length = 4 * values.length := by
    simp [List.length_flatMap, valueBytes, Nat.mul_comm]
  simp only [Instr.wf, stageRunLengthOk] at h
  have hrun : runLengthOk (4 * values.length + 4) count = true := by
    unfold runLengthOk
    split at h <;> rename_i hc <;> simp [hc] at h ⊢ <;> omega
  have hmax : values.length ≤ 8 := by split at h <;> simp at h <;> omega
  simp [requestClient, messageOf, parseRefusal, lengthRule, hlen, hrun]
  omega

theorem unstage (client : Client) (tag slot : Byte) :
    Statement (.unstage client tag slot) :=
  fun _ => ⟨rfl, Nat.le_of_ble_eq_true rfl, Nat.le_of_ble_eq_true rfl⟩

theorem abort (client : Client) (tag : Byte) :
    Statement (.abort client tag) :=
  fun _ => ⟨rfl, Nat.le_of_ble_eq_true rfl, Nat.le_of_ble_eq_true rfl⟩

theorem sealBatch (client : Client) (tag : Byte) :
    Statement (.sealBatch client tag) :=
  fun _ => ⟨rfl, Nat.le_of_ble_eq_true rfl, Nat.le_of_ble_eq_true rfl⟩

theorem cancel (client : Client) (tag id : Byte) :
    Statement (.cancel client tag id) :=
  fun _ => ⟨rfl, Nat.le_of_ble_eq_true rfl, Nat.le_of_ble_eq_true rfl⟩

theorem readBatch (client : Client) (tag id : Byte) :
    Statement (.readBatch client tag id) :=
  fun _ => ⟨rfl, Nat.le_of_ble_eq_true rfl, Nat.le_of_ble_eq_true rfl⟩

theorem setGeometry (client : Client) (tag : Byte) (lspan vspan wopen wclose : Half) (edge : Byte) :
    Statement (.setGeometry client tag lspan vspan wopen wclose edge) :=
  fun _ => ⟨rfl, Nat.le_of_ble_eq_true rfl, Nat.le_of_ble_eq_true rfl⟩

theorem start (client : Client) (tag mode : Byte) (epoch : Half) :
    Statement (.start client tag mode epoch) :=
  fun _ => ⟨rfl, Nat.le_of_ble_eq_true rfl, Nat.le_of_ble_eq_true rfl⟩

theorem stop (client : Client) (tag option : Byte) :
    Statement (.stop client tag option) :=
  fun _ => ⟨rfl, Nat.le_of_ble_eq_true rfl, Nat.le_of_ble_eq_true rfl⟩

theorem resetSchedule (client : Client) (tag : Byte) :
    Statement (.resetSchedule client tag) :=
  fun _ => ⟨rfl, Nat.le_of_ble_eq_true rfl, Nat.le_of_ble_eq_true rfl⟩

theorem readSchedule (client : Client) (tag : Byte) :
    Statement (.readSchedule client tag) :=
  fun _ => ⟨rfl, Nat.le_of_ble_eq_true rfl, Nat.le_of_ble_eq_true rfl⟩

theorem readOutputs (client : Client) (tag : Byte) :
    Statement (.readOutputs client tag) :=
  fun _ => ⟨rfl, Nat.le_of_ble_eq_true rfl, Nat.le_of_ble_eq_true rfl⟩

theorem readDevice (client : Client) (tag device : Byte) (register : Half) (width order : Byte) :
    Statement (.readDevice client tag device register width order) :=
  fun _ => ⟨rfl, Nat.le_of_ble_eq_true rfl, Nat.le_of_ble_eq_true rfl⟩

theorem readQueue (client : Client) (tag bus : Byte) :
    Statement (.readQueue client tag bus) :=
  fun _ => ⟨rfl, Nat.le_of_ble_eq_true rfl, Nat.le_of_ble_eq_true rfl⟩

theorem defineDevice (client : Client) (tag device state bus address size retries : Byte) :
    Statement (.defineDevice client tag device state bus address size retries) :=
  fun _ => ⟨rfl, Nat.le_of_ble_eq_true rfl, Nat.le_of_ble_eq_true rfl⟩

theorem busConfig (client : Client) (tag bus speed : Byte) :
    Statement (.busConfig client tag bus speed) :=
  fun _ => ⟨rfl, Nat.le_of_ble_eq_true rfl, Nat.le_of_ble_eq_true rfl⟩

theorem busRecover (client : Client) (tag bus : Byte) :
    Statement (.busRecover client tag bus) :=
  fun _ => ⟨rfl, Nat.le_of_ble_eq_true rfl, Nat.le_of_ble_eq_true rfl⟩

theorem readBus (client : Client) (tag bus : Byte) :
    Statement (.readBus client tag bus) :=
  fun _ => ⟨rfl, Nat.le_of_ble_eq_true rfl, Nat.le_of_ble_eq_true rfl⟩

theorem fetch (client : Client) (tag count : Byte) :
    Statement (.fetch client tag count) :=
  fun _ => ⟨rfl, Nat.le_of_ble_eq_true rfl, Nat.le_of_ble_eq_true rfl⟩

theorem subscribe (client : Client) (tag set divider : Byte) :
    Statement (.subscribe client tag set divider) :=
  fun _ => ⟨rfl, Nat.le_of_ble_eq_true rfl, Nat.le_of_ble_eq_true rfl⟩

theorem detach (client : Client) (tag : Byte) :
    Statement (.detach client tag) :=
  fun _ => ⟨rfl, Nat.le_of_ble_eq_true rfl, Nat.le_of_ble_eq_true rfl⟩

theorem pollNone (client : Client) (clocks : Nat) :
    Statement (.pollNone client clocks) :=
  fun _ => rfl

theorem messageTaken (client : Client) (arrival : Arrival) (bytes : List Byte) :
    Statement (.messageTaken client arrival bytes) :=
  fun _ => rfl

theorem messageRefused (client : Client) (via : Carrier) (bytes : List Byte) :
    Statement (.messageRefused client via bytes) :=
  fun _ => rfl

theorem readTransaction (client : Client) (address : BitVec 7) (count : Nat) :
    Statement (.readTransaction client address count) :=
  fun _ => rfl

theorem framingDetection (client : Client) (condition : FramingCondition) :
    Statement (.framingDetection client condition) :=
  fun _ => rfl

theorem housekeepingTick (held0 held1 : Bool) :
    Statement (.housekeepingTick held0 held1) :=
  fun _ => rfl

theorem leaseLapse (client : Client) :
    Statement (.leaseLapse client) :=
  fun _ => rfl

theorem lineAdvance :
    Statement (.lineAdvance) :=
  fun _ => rfl

theorem windowOpen :
    Statement (.windowOpen) :=
  fun _ => rfl

theorem windowClose :
    Statement (.windowClose) :=
  fun _ => rfl

theorem epochEnd :
    Statement (.epochEnd) :=
  fun _ => rfl

theorem trigger (edge : Edge) (heldFor : Nat) :
    Statement (.trigger edge heldFor) :=
  fun _ => rfl

theorem transferStart (bus : BusNo) (dataLow : Bool) :
    Statement (.transferStart bus dataLow) :=
  fun _ => rfl

theorem attemptNack (bus : BusNo) (nack : Nack) : Statement (.attemptNack bus nack) :=
  fun _ => rfl

theorem transferEnd (bus : BusNo) (read0 read1 read2 read3 : Byte) :
    Statement (.transferEnd bus read0 read1 read2 read3) :=
  fun _ => rfl

theorem stretchLimitExceeded (stretch : LongStretch) :
    Statement (.stretchLimitExceeded stretch) :=
  fun _ => rfl

theorem recoveryEnd (bus : BusNo) (lowLooks : Nat) (dataHigh clockHigh dataLowAtStart : Bool) :
    Statement (.recoveryEnd bus lowLooks dataHigh clockHigh dataLowAtStart) :=
  fun _ => rfl

theorem pinReset (cause : ResetCause) :
    Statement (.pinReset cause) :=
  fun _ => rfl

theorem resetRelease :
    Statement (.resetRelease) :=
  fun _ => rfl

theorem startupEnd (pins0 pins1 pins2 pins3 : PortPins) :
    Statement (.startupEnd pins0 pins1 pins2 pins3) :=
  fun _ => rfl

theorem twoWireCodeByte (client : Client) (address : BitVec 7) :
    Statement (.twoWireCodeByte client address) :=
  fun _ => rfl

theorem fourWireFrameStart (client : Client) :
    Statement (.fourWireFrameStart client) :=
  fun _ => rfl

theorem stretchEnd (bus : BusNo) :
    Statement (.stretchEnd bus) :=
  fun _ => rfl

end Sys2Proof.Laws.Message
end

