-- ==== Sys2Proof/Tests/Slice0.lean ====
section
/-! SUPPORT. Tests of one step or one message each, with expected values from the manual, and for every
statement with hypotheses a witness: a state and operands that meet them all, clause by clause. -/

set_option Elab.async false

namespace Sys2Proof.Tests

open Sys2Proof Sys2Proof.Machine

/-! ### Well-formedness and messages -/

/-- R174 step 4: a STAGE_RUN of count 2 carries two values, not one. -/
theorem test_illformed_stageRun : (Instr.stageRun 0 7 40 2 [1]).wf = false := by decide

/-- R174 step 4: nine values do not fit into 36 bytes, whatever the count byte. -/
theorem test_illformed_stageRun_long :
    (Instr.stageRun 0 7 40 9 (List.replicate 9 0)).wf = false := by decide

theorem test_wellformed_stageRun :
    (Instr.stageRun 0 7 40 8 (List.replicate 8 0)).wf = true := by decide

/-- Section 11.7: the OPEN message of the example, ABSOLUTE 612, STRICT. -/
theorem test_open_message : decodeRequest 1 [0x30, 0x0C, 0x01, 0x00, 0x02, 0x64] =
    some (.openBatch 1 0x0C 0x01 0x00 612) := by decide

/-- Section 11.7: the SEAL message of the example. -/
theorem test_seal_message : decodeRequest 1 [0x34, 0x10] = some (.sealBatch 1 0x10) := by decide

/-- R174: an unknown code is BAD_CODE before the length is looked at; a cut message is BAD_LENGTH. -/
theorem test_parse_refusals : parseRefusal [0x99] = some .badCode ∧
    parseRefusal [0x34] = some .badLength ∧ parseRefusal [0x34, 0x10, 0x00] = some .badLength ∧
    parseRefusal [0x34, 0x10] = none := by decide

/-- The opcode table gives no row any bits. -/
theorem test_no_table_words : decodeTableWord 16 0x1034 = none := rfl

/-- R10: the examples of the rule, and mode 3, ACTIVE_LOW, divisor 16, phase 15, the largest legal form
value. -/
theorem test_form_values : formOk 0xF413 = true ∧ formOk 0x0211 = true ∧ formOk 0x3201 = true ∧
    formOk 0x0241 = false ∧ formOk 0x5201 = false ∧ formOk 0x0005 = false ∧
    formOk 0x0500 = false := by
  decide

/-- R176: an event record has 12 bytes, padded with 00h. -/
theorem test_record_bytes : recordBytes
    { event := .epochMark 612, sequence := 9, stamp := 612 } =
      [0x0B, 0x09, 0x02, 0x64, 0x02, 0x64, 0, 0, 0, 0, 0, 0] := by decide

/-- R133: a write of 1234h, MSB_FIRST, to register 2001h of a device at 50h with 2-byte addresses. -/
theorem test_write_wire : attemptWire
    { isPresent := true, bus := 0, address := 0x50, size := 2, retries := 0 }
    { kind := .write, device := 0, register := 0x2001, width := 2, order := .msbFirst,
      value := 0x1234, slot := some 0, deadline := none, late := false, attempts := 0,
      origin := .priming, discarded := false, onBus := false, stamp := none } [] =
    [.start, .send 0xA0, .send 0x20, .send 0x01, .send 0x12, .send 0x34, .stop] := by decide

/-! ### States of the tests -/

/-- The request `i` of client `k` in service. -/
def served (k : Client) (i : Instr) (s : State) : State :=
  let s := s.setPort k
    { s.port k with lock := .twoWire, state := .working, request := some (messageOf i) }
  { s with host := { s.host with inService := some k } }

/-- Device `d`, PRESENT at address 10h on bus 0, with one retry. -/
def withDevice (d : DeviceNo) (s : State) : State :=
  s.setDevice d { isPresent := true, bus := 0, address := 0x10, size := 1, retries := 1 }

/-- Slot `i`, DEFINED on device 0 at register `i`, one byte wide with the limits 0 and 255. -/
def withSlot (i : SlotNo) (cls : SlotClass) (lead : Nat) (s : State) : State :=
  s.setSlot i
    { defined := true, device := some 0, register := BitVec.ofNat 16 i.val, width := 1,
      order := .msbFirst, cls := cls, lead := lead, min := 0, max := 255, prime := false, live := 5,
      liveState := .uncertain, applied := none }

/-- Device 0, EPOCH slot 0, IMMEDIATE slot 1, EPOCH slot 2 of lead 2, and client 0 with the token. -/
def bench : State :=
  (withSlot 2 .epoch 2 (withSlot 1 .immediate 0 (withSlot 0 .epoch 0
    (withDevice 0 State.reset)))).setToken (some 0)

/-- Port `k` locked to framing `f`. -/
def locked (k : Client) (f : Framing) (s : State) : State :=
  s.setPort k { s.port k with lock := f }

/-- Port `k` WORKING on the request `i`, with no grant made. -/
def taken (k : Client) (i : Instr) (s : State) : State :=
  s.setPort k { s.port k with state := .working, request := some (messageOf i) }

/-- The schedule in run state `r` at line `line`. -/
def running (r : RunState) (m : Mode) (line : Nat) (w : WindowView) (s : State) : State :=
  s.setGen { s.gen with run := r, mode := m, c := 100, line := line, window := w }

/-- An OPEN batch of client 0 with the given records. -/
def openBatchOf (records : List Staged) : Batch :=
  { Batch.empty with state := .opened, id := 1, records := records,
                     maxLead := maxLeadOf records }

/-- A sealed batch of client 0 with id 1 and `n` unresolved records. -/
def sealedBatch (n : Nat) : Batch :=
  { Batch.empty with state := .armed, id := 1, target := 101, count := n, unresolved := n }

/-- An entry for slot `i` on device 0. -/
def entry (kind : EntryKind) (i : SlotNo) (origin : Origin) : Entry :=
  { kind := kind, device := 0, register := BitVec.ofNat 16 i.val, width := 1, order := .msbFirst,
    value := 7, slot := some i, deadline := none, late := false, attempts := 0, origin := origin,
    discarded := false, onBus := false, stamp := none }

/-- The batch reference of `sealedBatch`. -/
def ref1 : BatchRef := { client := 0, id := 1 }

/-- The record at `position` of `ref1` for slot `i`, target and dispatch epoch `d`. -/
def recordOf (i : SlotNo) (d : Epoch) (position : Nat) (state : RecordState) : PendingRecord :=
  { slot := i, value := 9, target := d, dispatch := d, batch := ref1, position := position,
    state := state }

/-- The batch reference of client 1's batch 4. -/
def ref4 : BatchRef := { client := 1, id := 4 }

/-- A transfer on device 0 with `made` failed attempts of 2. -/
def transfer (made : Nat) : Transfer :=
  { device := 0, register := 0, limit := 2, made := made,
    wire := [.start, .send 0x20, .send 0x00, .send 0x07, .stop] }

/-- Bus 0 in engine state `e` with the given transfer and queue. -/
def onBus0 (e : EngineState) (t : Option Transfer) (q : List Entry) (s : State) : State :=
  (s.setEngine 0 { s.engine 0 with state := e, xfer := t }).setQueue 0 q

/-! ### One step each -/

/-- Section 2.7: the lease counter loads with the setting, and the answer is the previous setting. -/
theorem test_setLease : (match exec (.setLease 0 7 8) (locked 0 .fourWire State.reset) with
    | .next t => t.lease 0 == { setting := 8, counter := 8 } &&
        (t.port 0).response == [0x00, 0x07, 0x25, 0x00, 0x00]
    | _ => false) = true := by decide +kernel

/-- R25: the second client to ask for the token is answered HELD_BY with the holder. -/
theorem test_claimSchedule_held : (match exec (.claimSchedule 1 9) (locked 1 .twoWire bench) with
    | .next t => t.claims.token == some 0 && (t.port 1).response == [0x25, 0x09, 0x22, 0x00]
    | _ => false) = true := by decide +kernel

/-- R22: a range beyond slot 255 is refused BAD_VALUE. -/
theorem test_claim_range : (match exec (.claim 1 9 255 2) (locked 1 .twoWire bench) with
    | .next t => (t.port 1).response == [0x12, 0x09, 0x20]
    | _ => false) = true := by decide +kernel

/-- R37: the id after 255 is 1. -/
theorem test_id_wraps : idAfter 255 = 1 ∧ idAfter 0 = 1 ∧ idAfter 254 = 255 := by decide

/-- R46: the horizon is 240, and the earliest target lies 1 + M ahead, across the wrap of C. -/
theorem test_targets : resolveTarget .absolute 240 .strict 0 0 = .target 240 false ∧
    resolveTarget .absolute 241 .slip 0 0 = .outOfHorizon ∧
    resolveTarget .absolute 1 .slip 3 65535 = .target 3 true ∧
    resolveTarget .next 0 .strict 3 65534 = .target 2 false := by decide

/-- R94: a trigger in WAIT_TRIGGER begins the next epoch; one edge too early is no trigger. -/
theorem test_trigger : (match exec (.trigger .rising 3) (running .waitTrigger .triggered 0 .shut bench),
      exec (.trigger .rising 2) (running .waitTrigger .triggered 0 .shut bench) with
    | .next t, .next u => t.gen.run == .running && t.gen.c == 101 && u.gen.run == .waitTrigger
    | _, _ => false) = true := by decide +kernel

/-- R178: port 1 with ADDR_1 at 10b answers at 5Ah. -/
theorem test_strap : (match exec (.startupEnd ⟨0, false, false⟩ ⟨2, false, true⟩ ⟨0, false, false⟩
      ⟨3, true, false⟩) { bench with phase := .startup } with
    | .next t => (t.port 1).strap == 0x5A && (t.port 3).strap == 0x5B && (t.port 3).underWay &&
        !(t.port 1).underWay && t.phase == .operating
    | _ => false) = true := by decide +kernel

/-- R154, R178: a port with HSEL_N low at the end of start-up stays UNDETERMINED at a START after the rise,
and its next falling edge locks it FOUR_WIRE. -/
theorem test_select_low : (match exec (.startupEnd ⟨0, false, true⟩ ⟨0, false, false⟩
      ⟨0, false, false⟩ ⟨0, false, false⟩) { bench with phase := .startup } with
    | .next t => (match exec (.framingDetection 0 (.startCondition true)) t,
          exec (.framingDetection 0 .selectFalls) t,
          exec (.framingDetection 1 (.startCondition true)) t with
        | .next u, .next v, .next w => (u.port 0).lock == .undetermined &&
            (v.port 0).lock == .fourWire && !(v.port 0).awaitsFall && (w.port 1).lock == .twoWire
        | _, _, _ => false)
    | _ => false) = true := by decide +kernel

/-- R154: no byte is acknowledged at a port that no framing has locked. -/
theorem test_undetermined : (match exec (.claimSchedule 0 9) State.reset with
    | .next t => decide (t = State.reset)
    | _ => false) = true := by decide +kernel

/-- R164: of the requests of ports 0 and 1, both taken before the grant, the port at the pointer is
granted first, whichever was taken first. -/
theorem test_pointer_order : (match exec (.messageTaken 1 ⟨.twoWire 0x58, false⟩ [0x22, 9])
      (taken 0 (.claimSchedule 0 8)
        (locked 1 .twoWire { State.reset with host := { State.reset.host with pointer := 1 } })) with
    | .next t => t.host.inService == some 1 && t.isWaiting 0
    | _ => false) = true := by decide +kernel

/-- R158: HDO is driven from the falling edge of HSEL_N to the rising one, and at high impedance else. -/
theorem test_data_out : (match exec (.fourWireFrameStart 0) (locked 0 .fourWire State.reset) with
    | .next t => t.hostDataOut 0 == .driven && t.hostDataOut 1 == .released &&
        (match exec (.pollNone 0 16) t with
         | .next u => u.hostDataOut 0 == .released
         | _ => false)
    | _ => false) = true := by decide +kernel

/-- R120: the entry behind the one that ends priming, TRIGGERED with S = 5, finishes in WAIT_TRIGGER:
its WRITE_DONE comes after the report and is stamped S − 1. -/
theorem test_priming_ends_at_its_entry :
    (match exec (.transferEnd 0 0 0 0 0) (onBus0 .transfer (some (transfer 0))
        [{ entry .prime 0 .priming with onBus := true },
         { entry .now 1 (.client 0 3) with onBus := true }]
        (bench.setGen { bench.gen with
          run := .priming, mode := .triggered, c := 100, startEpoch := 5, primesOutstanding := 1,
          issuer := some 0 })) with
    | .next t => (t.eventQueue 0).records == [
        { event := .scheduleState .waitTrigger .triggered .primed (some 0) 4, sequence := 0,
          stamp := 4 },
        { event := .writeDone 3 1 .done, sequence := 1, stamp := 4 }]
    | _ => false) = true := by decide +kernel

/-- R135: after a byte that is not acknowledged nothing is sent but a STOP. -/
theorem test_nacked_wire : nackedWire 1 (transfer 0).wire =
    [.start, .send 0x20, .send 0x00, .stop] := by decide

/-- R159: a frame of seven clocks shows seven bits of the status byte 03h of a response to nothing. -/
theorem test_cut_frame : (match exec (.messageTaken 0 ⟨.fourWire 7, false⟩ [])
      (locked 0 .fourWire State.reset) with
    | .next t => (t.port 0).shown == [] &&
        (t.port 0).shownBits == [false, false, false, false, false, false, true]
    | _ => false) = true := by decide +kernel

/-- R91, R117: the close marks a waiting write of this epoch late, and no other. -/
theorem test_window_close : (match exec .windowClose
      (onBus0 .idle none
        [{ entry .write 0 (.record ref1 1) with deadline := some 100 },
         { entry .write 2 (.record ref1 2) with deadline := some 101 }]
        (running .running .free 900 .opened bench)) with
    | .next t => (t.queue 0).map (·.late) == [true, false]
    | _ => false) = true := by decide +kernel

/-! ### Witnesses: messages, service and grants -/

theorem witness_StepRunsTheFrontCommand :
    ({ bench with pending := [.lineAdvance, .epochEnd] } : State).pending =
      .lineAdvance :: [.epochEnd] ∧ bench.pending = [] := ⟨rfl, rfl⟩

theorem witness_RequestMessagesReadBack :
    requestClient (.stageRun 3 255 248 8 (List.replicate 8 0xFFFFFFFF)) = some 3 ∧
      (Instr.stageRun 3 255 248 8 (List.replicate 8 0xFFFFFFFF)).wf = true := by decide

theorem witness_MessagesThatPassReadAsTheirRequest :
    decodeRequest 2 (0x32 :: 7 :: 40 :: 1 :: [0, 0, 0, 9]) = some (.stageRun 2 7 40 1 [9]) := by
  decide

theorem witness_RequestWaitsBehindAnother :
    let i : Instr := .claim 1 9 0 1
    let s := served 0 (.readSlot 0 1 2) (locked 1 .twoWire bench)
    let f := served 0 (.readSlot 0 1 2) (locked 1 .fourWire bench)
    let n := s.setPort 1 { s.port 1 with judged := some false }
    requestClient i = some 1 ∧ i.wf = true ∧ s.phase = .operating ∧ (s.port 1).lock = .twoWire ∧
      (s.port 1).state = .ready ∧ (s.port 1).judged ≠ some false ∧ s.host.inService = some 0 ∧
      (f.port 1).lock = .fourWire ∧ (f.port 1).state = .ready ∧ f.host.inService = some 0 ∧
      (n.port 1).judged = some false ∧ n.host.inService ≠ some 1 ∧
      ((taken 1 (.detach 1 2) s).port 1).state = .working ∧
      ((taken 1 (.detach 1 2) s).port 1).request ≠ some (messageOf i) ∧
      (bench.port 1).lock = .undetermined ∧ (bench.port 1).request ≠ some (messageOf i) := by
  decide +kernel

theorem witness_RequestIsGrantedAtOnce :
    let i : Instr := .claim 3 9 0 1
    let s := locked 3 .twoWire bench
    let w := taken 3 i (taken 1 (.detach 1 2) bench)
    let own := { w with host := { w.host with pointer := 2 } }
    requestClient i = some 3 ∧ i.wf = true ∧ s.phase = .operating ∧ s.host.inService = none ∧
      (∀ j : Client, (s.port j).state = .ready) ∧ (s.port 3).judged ≠ some false ∧
      ((locked 3 .fourWire bench).port 3).lock = .fourWire ∧
      w.host.inService = none ∧ (w.port 3).request = some (messageOf i) ∧
      w.host.pointer + 1 = 1 ∧ (w.port 1).state = .working ∧ (w.port 0).state = .ready ∧
      own.host.pointer + 1 = 3 ∧ (own.port 3).state = .working ∧ (own.port 2).state = .ready := by
  decide +kernel

theorem witness_ServiceEndsAndGrantsTheNext :
    let s := bench.setPort 2 { bench.port 2 with state := .working, request := some [0x22, 1] }
    (∀ j : Client, j ≠ 0 → (bench.port j).state = .ready) ∧
      s.host.pointer + 2 ≠ 0 ∧ (s.port (s.host.pointer + 2)).state = .working ∧
      ∀ m : Fin 4, m < 2 →
        s.host.pointer + m = 0 ∨ (s.port (s.host.pointer + m)).state = .ready := by
  decide +kernel

theorem witness_RequestsWithoutTokenOrStoppedAreRefused :
    let i : Instr := .defineDevice 1 7 0 1 0 0x10 1 0
    let j : Instr := .undefineSlot 0 7 231
    let s := served 1 i bench
    let t := served 0 j (running .running .free 0 .shut bench)
    InService 1 i s ∧ needsToken i = true ∧ s.claims.token ≠ some 1 ∧
      InService 0 j t ∧ needsStopped j = true ∧ t.claims.token = some 0 ∧
      t.gen.run ≠ .stopped := by
  decide +kernel

/-! ### Witnesses: Slot Table -/

theorem witness_DefineSlotWritesTheRecord :
    let i : Instr := .defineSlot 0 7 231 0 255 0x14 0x2C 0 0xFFFFFFFF 0xFFFFFFFF
    let s := served 0 i bench
    (0x14 : Byte) = BitVec.ofNat 8 (4 + 16) ∧ (0x2C : Byte) = BitVec.ofNat 8 (0 + 4 * 3 + 32) ∧
      InService 0 i s ∧ s.claims.token = some 0 ∧ s.gen.run = .stopped ∧ FreeFor 0 s 231 ∧
      s.busy 231 = false ∧ (s.device 0).isPresent = true ∧ (s.device 0).size = 1 := by
  decide +kernel

theorem witness_UndefineSlotReturnsTheSlot :
    let i : Instr := .undefineSlot 0 7 2
    let s := (served 0 i bench).setOwner 2 (some 0)
    InService 0 i s ∧ s.claims.token = some 0 ∧ s.gen.run = .stopped ∧
      (s.slot 2).defined = true ∧ FreeFor 0 s 2 ∧ s.pendingCount 2 = 0 ∧ s.queuedCount 2 = 0 ∧
      InService 0 (.undefineSlot 0 7 232) (served 0 (.undefineSlot 0 7 232) bench) := by
  decide +kernel

theorem witness_SlotAndBatchReadsChangeNothing :
    let s := served 1 (.readSlot 1 7 255) bench
    let t := (served 0 (.readBatch 0 7 1) (bench.setContext 0 3 (sealedBatch 2))).setSealList [ref1]
    InService 1 (.readSlot 1 7 255) s ∧ InService 0 (.readBatch 0 7 1) t ∧
      (t.context 0 3).state ≠ .free ∧ (t.context 0 3).id = 1 ∧
      (∀ m : Fin 4, m < 3 → (t.context 0 m).state = .free) ∧
      t.batches.sealList[0]? = some ref1 := by
  decide +kernel

theorem witness_WriteNowEntersTheQueue :
    let i : Instr := .writeNow 0 7 1 255
    let s := served 0 i bench
    let full := s.setQueue 0 (List.replicate 32 (entry .write 0 .detached))
    let old := entry .now 1 (.client 3 9)
    InService 0 i s ∧ (s.slot 1).defined = true ∧ (s.slot 1).device = some 0 ∧
      (s.slot 1).cls = .immediate ∧ s.admissible 1 255 = true ∧ FreeFor 0 s 1 ∧ s.queue 0 = [] ∧
      (∀ x ∈ full.queue 0, x.waitsFor 1 = false) ∧ 32 ≤ (full.queue 0).length ∧
      (s.setQueue 0 [old]).queue 0 = [] ++ old :: [] ∧ old.onBus = false := by
  decide +kernel

/-! ### Witnesses: Claim Table -/

theorem witness_ClaimTakesTheWholeRange :
    let i : Instr := .claim 1 7 255 1
    let j : Instr := .claim 1 7 0 4
    let s := served 1 i bench
    let t := (served 1 j (withSlot 3 .epoch 0 bench)).setOwner 2 (some 0)
    InService 1 i s ∧ (s.slot 255).defined = true ∧ FreeFor 1 s 255 ∧
      InService 1 j t ∧ t.owner 2 = some 0 ∧ FreeFor 1 t 0 ∧ FreeFor 1 t 1 ∧
      (∀ m : Fin 4, (t.slot (slotNo (BitVec.ofNat 8 m.val))).defined = true) ∧
      (bench.slot 3).defined = false := by
  decide +kernel

theorem witness_ReleaseGivesUpOwnClaims :
    InService 1 (.release 1 7 192 64) (served 1 (.release 1 7 192 64) bench) ∧
      InService 1 (.release 1 7 192 65) (served 1 (.release 1 7 192 65) bench) := by
  decide +kernel

theorem witness_ClaimScheduleTakesTheToken :
    let i : Instr := .claimSchedule 0 7
    let j : Instr := .claimSchedule 1 7
    InService 0 i (served 0 i State.reset) ∧ State.reset.claims.token = none ∧
      InService 0 i (served 0 i bench) ∧ InService 1 j (served 1 j bench) ∧
      bench.claims.token = some 0 := by
  decide +kernel

theorem witness_ReleaseScheduleGivesTheTokenUp :
    let i : Instr := .releaseSchedule 0 7
    let j : Instr := .releaseSchedule 1 7
    InService 0 i (served 0 i bench) ∧ bench.claims.token = some 0 ∧
      InService 1 j (served 1 j bench) := by
  decide +kernel

theorem witness_RevokeFreesTheNamedClient :
    let i : Instr := .revoke 0 7 3
    let s := served 0 i bench
    InService 0 i s ∧ s.claims.token = some 0 ∧
      InService 0 (.revoke 0 7 4) (served 0 (.revoke 0 7 4) bench) ∧
      InService 0 (.revoke 0 7 0) (served 0 (.revoke 0 7 0) bench) := by
  decide +kernel

theorem witness_SetLeaseSetsSettingAndCounter :
    InService 2 (.setLease 2 7 255) (served 2 (.setLease 2 7 255) bench) ∧
      InService 2 (.setLease 2 7 256) (served 2 (.setLease 2 7 256) bench) ∧
      InService 2 (.setLease 2 7 7) (served 2 (.setLease 2 7 7) bench) := by
  decide +kernel

/-! ### Witnesses: Batch Contexts -/

theorem witness_OpenTakesAFreshContext :
    let i : Instr := .openBatch 0 7 1 1 340
    let s := served 0 i (bench.setContext 0 0 (sealedBatch 1))
    InService 0 i s ∧ (∀ m : Fin 4, (s.context 0 m).state ≠ .opened) ∧
      (s.context 0 1).state = .free ∧ (∀ m : Fin 4, m < 1 → (s.context 0 m).state ≠ .free) := by
  decide +kernel

theorem witness_StageKeepsOneRecordPerSlot :
    let i : Instr := .stage 0 7 2 255
    let old : Staged := { slot := 2, value := 3, lead := 2 }
    let other : Staged := { slot := 0, value := 3, lead := 0 }
    let s := served 0 i (bench.setContext 0 3 (openBatchOf [other, old]))
    let t := served 0 i (bench.setContext 0 3 (openBatchOf (List.replicate 31 other)))
    let u := served 0 i (bench.setContext 0 3 (openBatchOf (List.replicate 32 other)))
    InService 0 i s ∧ OpenAt 0 3 s ∧ (s.slot 2).defined = true ∧ (s.slot 2).cls = .epoch ∧
      s.admissible 2 255 = true ∧ FreeFor 0 s 2 ∧
      (s.context 0 3).records = [other] ++ old :: [] ∧
      InService 0 i t ∧ OpenAt 0 3 t ∧ (t.context 0 3).records.length < 32 ∧
      InService 0 i u ∧ OpenAt 0 3 u ∧ 32 ≤ (u.context 0 3).records.length := by
  decide +kernel

theorem witness_StageKeepsOneRecordPerSlot_refusals :
    let st (slot : Byte) (v : Value) : Instr := .stage 0 7 slot v
    let open0 := bench.setContext 0 3 (openBatchOf [])
    InService 0 (st 0 1) (served 0 (st 0 1) bench) ∧
      (∀ n : Fin 4, (bench.context 0 n).state ≠ .opened) ∧ OpenAt 0 3 open0 ∧
      InService 0 (st 9 1) (served 0 (st 9 1) open0) ∧ (open0.slot 9).defined = false ∧
      InService 0 (st 1 1) (served 0 (st 1 1) open0) ∧ (open0.slot 1).cls ≠ .epoch ∧
      InService 0 (st 233 0x0241) (served 0 (st 233 0x0241) open0) ∧
      (open0.slot 233).cls = .epoch ∧ open0.admissible 233 0x0241 = false ∧
      InService 0 (st 2 255) (served 0 (st 2 255) (open0.setOwner 2 (some 1))) ∧
      open0.admissible 2 255 = true ∧ ¬ FreeFor 0 (open0.setOwner 2 (some 1)) 2 := by
  decide +kernel

theorem witness_StageKeepsOneRecordPerSlot_local :
    LocalDescriptor 232 (bench.slot 232) ∧ LocalDescriptor 255 (bench.slot 255) := by
  unfold LocalDescriptor
  decide +kernel

theorem witness_StageRunAppendsTheWholeRange :
    let old : Staged := { slot := 0, value := 3, lead := 0 }
    let i : Instr := .stageRun 0 7 2 1 [255]
    let j : Instr := .stageRun 0 7 0 2 [9, 10]
    let l : Instr := .stageRun 0 7 2 2 [255, 1]
    let s := served 0 i (bench.setContext 0 0 (openBatchOf [old]))
    let t := served 0 j (bench.setContext 0 0 (openBatchOf [old]))
    let u := served 0 l (bench.setContext 0 0 (openBatchOf []))
    let v := (served 0 i (bench.setContext 0 0 (openBatchOf []))).setOwner 2 (some 1)
    let full := served 0 i (bench.setContext 0 0 (openBatchOf (List.replicate 32 old)))
    let w := served 0 (.stageRun 0 7 2 1 [256]) (bench.setContext 0 0 (openBatchOf []))
    InService 0 i s ∧ OpenAt 0 0 s ∧ (s.slot 2).defined = true ∧ (s.slot 2).cls = .epoch ∧
      s.admissible 2 255 = true ∧ FreeFor 0 s 2 ∧
      InService 0 j t ∧ (t.slot 0).cls = .epoch ∧ t.admissible 0 9 = true ∧ FreeFor 0 t 0 ∧
      (t.slot 1).defined = true ∧ (t.slot 1).cls ≠ .epoch ∧
      InService 0 l u ∧ (u.slot 3).defined = false ∧
      ¬ FreeFor 0 v 2 ∧ w.admissible 2 256 = false ∧
      32 ≤ (full.context 0 0).records.length ∧
      (∀ r ∈ (full.context 0 0).records, r.slot ≠ 2) ∧
      (∀ n : Fin 4, (bench.context 0 n).state ≠ .opened) ∧
      InService 0 (.stageRun 0 7 248 9 []) (served 0 (.stageRun 0 7 248 9 []) bench) := by
  decide +kernel

theorem witness_BatchesAreWithdrawnByRequest :
    let old : Staged := { slot := 2, value := 3, lead := 2 }
    let i : Instr := .unstage 0 7 2
    let s := served 0 i (bench.setContext 0 0 (openBatchOf [old]))
    let t := served 0 (.abort 0 7) (bench.setContext 0 0 (openBatchOf []))
    let u := served 0 (.cancel 0 7 1) (bench.setContext 0 2 (sealedBatch 2))
    let v := served 0 (.cancel 0 7 1)
      (bench.setContext 0 2 { sealedBatch 2 with state := .releasing })
    InService 0 i s ∧ OpenAt 0 0 s ∧ (s.context 0 0).records = [] ++ old :: [] ∧
      InService 0 (.abort 0 7) t ∧ OpenAt 0 0 t ∧
      InService 0 (.cancel 0 7 1) u ∧ (u.context 0 2).state = .armed ∧ (u.context 0 2).id = 1 ∧
      (∀ m : Fin 4, m < 2 → (u.context 0 m).isSealed = false) ∧
      InService 0 (.cancel 0 7 1) v ∧ (v.context 0 2).state = .releasing := by
  decide +kernel

theorem witness_SealMovesTheBatchIntoTheStore :
    let i : Instr := .sealBatch 0 7
    let b := openBatchOf [{ slot := 2, value := 3, lead := 2 }, { slot := 0, value := 4, lead := 0 }]
    let s := served 0 i (bench.setContext 0 0 b)
    let t := served 0 i (bench.setContext 0 0 { b with kind := .absolute, epoch := 3 })
    let u := served 0 i
      (bench.setContext 0 0 { b with kind := .absolute, epoch := 2, policy := .slip })
    InService 0 i s ∧ OpenAt 0 0 s ∧ (∀ x ∈ (s.context 0 0).records,
        (s.slot x.slot).defined = true ∧ FreeFor 0 s x.slot) ∧ (s.context 0 0).kind = .next ∧
      InService 0 i t ∧ 1 + (t.context 0 0).maxLead ≤ ((t.context 0 0).epoch - t.gen.c).toNat ∧
      InService 0 i u ∧ ((u.context 0 0).epoch - u.gen.c).toNat < 1 + (u.context 0 0).maxLead ∧
      s.store.length + 2 ≤ 192 := by
  decide +kernel

theorem witness_SealIsRefusedWhole_slots :
    let i : Instr := .sealBatch 0 7
    let gone := served 0 i (bench.setContext 0 0 (openBatchOf [⟨0, 3, 0⟩, ⟨9, 3, 0⟩]))
    let held := (served 0 i (bench.setContext 0 0 (openBatchOf [⟨2, 3, 2⟩]))).setOwner 2 (some 1)
    InService 0 i (served 0 i bench) ∧ (∀ n : Fin 4, (bench.context 0 n).state ≠ .opened) ∧
      InService 0 i gone ∧ OpenAt 0 0 gone ∧ (gone.slot 9).defined = false ∧
      (gone.slot 0).defined = true ∧ InService 0 i held ∧ OpenAt 0 0 held ∧
      held.owner 2 = some 1 ∧ (held.slot 2).defined = true := by
  decide +kernel

theorem witness_SealIsRefusedWhole :
    let i : Instr := .sealBatch 0 7
    let b := openBatchOf [{ slot := 2, value := 3, lead := 2 }]
    let x : PendingRecord := { slot := 2, value := 1, target := 3, dispatch := 1, batch := ref1,
                               position := 1, state := .waiting }
    let far := served 0 i (bench.setContext 0 0 { b with kind := .absolute, epoch := 241 })
    let near := served 0 i (bench.setContext 0 0 { b with kind := .absolute, epoch := 2 })
    let taken := (served 0 i (bench.setContext 0 0 b)).setStore [x]
    let full := (served 0 i (bench.setContext 0 0 b)).setStore
      (List.replicate 192 { x with slot := 0 })
    InService 0 i (served 0 i (bench.setContext 0 0 (openBatchOf []))) ∧
      InService 0 i far ∧ 240 < ((far.context 0 0).epoch - far.gen.c).toNat ∧
      InService 0 i near ∧ ((near.context 0 0).epoch - near.gen.c).toNat < 1 + 2 ∧
      InService 0 i taken ∧ resolveTarget .next 0 .strict 2 taken.gen.c = .target 3 false ∧
      InService 0 i full ∧ 192 < full.store.length + 1 ∧ OpenAt 0 0 full := by
  decide +kernel

/-! ### Witnesses: Epoch Generator and Timing Outputs -/

theorem witness_SetGeometryTakesAllOrNothing :
    let i : Instr := .setGeometry 0 7 4095 65535 65531 65535 1
    let j : Instr := .setGeometry 0 7 32 64 60 65 0
    InService 0 i (served 0 i bench) ∧ bench.claims.token = some 0 ∧ bench.gen.run = .stopped ∧
      InService 0 j (served 0 j bench) := by
  decide +kernel

theorem witness_StartBeginsOrPrimes :
    let i : Instr := .start 0 7 1 0
    let s := served 0 i bench
    let t := s.setSlot 231 { s.slot 0 with prime := true }
    let full := t.setQueue 0 (List.replicate 32 (entry .now 1 (.client 0 3)))
    t.slotBus 231 = some 0 ∧ t.queue 0 = [] ∧ 32 ≤ (full.queue 0).length ∧ InService 0 i full ∧
      InService 0 i s ∧ s.claims.token = some 0 ∧ s.gen.run = .stopped ∧ s.store = [] ∧
      (∀ n : Fin 3, (s.slot (slotNo (BitVec.ofNat 8 n.val))).prime = false) ∧
      (s.slot 231).defined = false ∧ InService 0 i t ∧ (t.slot 231).prime = true ∧
      (t.slot 231).defined = true := by
  decide +kernel

theorem witness_StartBeginsOrPrimes_stale :
    let x := recordOf 2 300 1 .waiting
    let y := recordOf 0 100 2 .deferred
    let kept := { recordOf 232 101 1 .waiting with batch := ref4 }
    let s := served 0 (.start 0 7 0 60) ((((bench.setStore [x, kept, y]).setContext 0 0
      (sealedBatch 2)).setContext 1 2 { sealedBatch 1 with id := 4 }).setSealList [ref1, ref4])
    InService 0 (.start 0 7 0 60) s ∧ s.claims.token = some 0 ∧ s.gen.run = .stopped ∧
      s.store.filter (fun x => decide (x.state ≠ .released) &&
        decide (240 < (x.dispatch - 60).toNat)) = [] ∧
      s.store.filter (fun x => decide (x.state ≠ .released) &&
        decide (240 < (x.dispatch - 101).toNat)) = [y] ∧
      s.store.filter (fun x => decide (x.state ≠ .released) &&
        decide (240 < (x.dispatch - 500).toNat)) = [x, kept, y] ∧
      RecordsDistinct s ∧ (∀ z ∈ s.store, z.state = .waiting → z.dispatch ≠ 60) ∧
      s.completedAt ([x, kept, y].map (fun z => some z.batch)) 0 = none ∧
      s.completedAt ([x, kept, y].map (fun z => some z.batch)) 1 = some (ref4, s.context 1 2) ∧
      s.completedAt ([x, kept, y].map (fun z => some z.batch)) 2 = some (ref1, s.context 0 0) ∧
      ∀ (r : BatchRef) (n : Fin 4), s.sealedContext r = some n →
        [x, kept, y].countP (fun z => z.batch == r) ≤ (s.context r.client n).unresolved := by
  refine ⟨?_, ?_, ?_, ?_, ?_, ?_, ?_, ?_, ?_, ?_, ?_, ?_⟩
  iterate 11 decide +kernel
  intro r n h
  by_cases h1 : r = ref1
  · subst h1; revert n; decide +kernel
  · by_cases h4 : r = ref4
    · subst h4; revert n; decide +kernel
    · have g1 : (ref1 == r) = false := by simpa using fun h => h1 h.symm
      have g4 : (ref4 == r) = false := by simpa using fun h => h4 h.symm
      simp [recordOf, g1, g4]

theorem witness_StopActsByRunStateAndOption :
    let i : Instr := .stop 0 7 0
    let j : Instr := .stop 0 7 1
    let s := served 0 i (running .running .free 5 .shut bench)
    InService 0 i s ∧ s.claims.token = some 0 ∧
      InService 0 j (served 0 j (running .stopping .free 5 .shut bench)) ∧
      InService 0 i (served 0 i (running .waitTrigger .triggered 0 .shut bench)) ∧
      InService 0 i (served 0 i (running .priming .free 0 .shut bench)) ∧
      (∀ b : BusNo, (running .priming .free 0 .shut bench).deferredSet b = []) ∧
      InService 0 (.stop 0 7 2) (served 0 (.stop 0 7 2) (running .running .free 5 .shut bench)) ∧
      InService 0 i (served 0 i bench) ∧ bench.gen.run = .stopped := by
  decide +kernel

theorem witness_StopActsByRunStateAndOption_deferred :
    let i : Instr := .stop 0 7 0
    let s := served 0 i ((onBus0 .idle none (List.replicate 32 (entry .prime 1 .priming))
      (running .priming .free 0 .shut bench)).setStore
        [recordOf 0 90 1 .deferred, recordOf 2 92 2 .deferred])
    InService 0 i s ∧ s.claims.token = some 0 ∧ s.gen.run = .priming ∧ RecordsDistinct s ∧
      enteringBehind s 0 [] = [recordOf 0 90 1 .deferred, recordOf 2 92 2 .deferred] := by
  decide +kernel

theorem witness_ResetScheduleEmptiesTheSchedule :
    let i : Instr := .resetSchedule 0 7
    let s := served 0 i (onBus0 .transfer (some (transfer 0))
      [{ entry .now 1 (.client 0 3) with onBus := true }, entry .write 0 (.record ref1 1),
        entry .now 1 (.client 3 4), { entry .probe 1 (.client 3 5) with slot := none }]
      (((running .running .free 5 .opened bench).setContext 0 2 (sealedBatch 1)).setSealList
        [ref1]))
    s.batches.sealList.Nodup ∧ s.sealedContext ref1 = some 2 ∧
      (s.context 0 1).isSealed = false ∧ (s.eventQueue 0).records = [] ∧
      droppedReports s 0 3 = [.writeDone 4 1 .dropped, .probeResult 5 0 .dropped 0] ∧
      InService 0 i s ∧ s.claims.token = some 0 ∧ (s.queue 0).countP (·.onBus) = 1 := by
  decide +kernel

theorem witness_ScheduleAndBusReadsChangeNothing :
    let q := onBus0 .idle none [entry .now 1 (.client 0 3)] bench
    InService 1 (.readSchedule 1 7) (served 1 (.readSchedule 1 7) bench) ∧
      InService 1 (.readOutputs 1 7) (served 1 (.readOutputs 1 7) bench) ∧
      InService 1 (.readBus 1 7 1) (served 1 (.readBus 1 7 1) bench) ∧
      1 < (2 : Byte).toNat ∧ InService 1 (.readBus 1 7 2) (served 1 (.readBus 1 7 2) bench) ∧
      InService 1 (.readQueue 1 7 2) (served 1 (.readQueue 1 7 2) bench) ∧
      InService 1 (.readQueue 1 7 0) (served 1 (.readQueue 1 7 0) q) ∧
      q.queue 0 = entry .now 1 (.client 0 3) :: [] ∧
      InService 1 (.readQueue 1 7 1) (served 1 (.readQueue 1 7 1) q) ∧ q.queue 1 = [] := by
  decide +kernel

theorem witness_LineAdvanceComputesTheLevels :
    let s := running .running .free 1098 .closed bench
    let t := running .running .free 1099 .closed bench
    s.phase = .operating ∧ s.gen.run.inEpoch = true ∧ s.gen.line + 1 < s.gen.vspan ∧
      s.gen.openDue = false ∧ s.gen.closeDue = false ∧ t.gen.vspan ≤ t.gen.line + 1 ∧
      bench.gen.run.inEpoch = false := by
  decide +kernel

theorem witness_WindowMomentsReachEnginesAndQueues :
    let s := running .running .free 16 .shut bench
    let t := running .stopping .free 900 .opened bench
    let u := t.setGen { t.gen with wclose := 1100, line := 1099 }
    s.phase = .operating ∧ s.gen.run.inEpoch = true ∧ s.gen.line = s.gen.wopen ∧
      s.gen.window = .shut ∧ t.gen.run.inEpoch = true ∧ t.gen.line = t.gen.wclose ∧
      u.gen.wclose = u.gen.vspan ∧ u.gen.line + 1 = u.gen.vspan ∧ u.gen.window = .opened := by
  decide +kernel

theorem witness_EpochEndActsByRunState :
    let s := running .running .free 1099 .closed bench
    let t := running .running .triggered 1099 .closed bench
    let u := running .stopping .free 1099 .closed bench
    let marked := (s.setEventQueue 2 { s.eventQueue 2 with
      mark := true, divider := 2, counter := 1 }).setEventQueue 3
        { s.eventQueue 3 with mark := true, divider := 255, counter := 0 }
    (marked.eventQueue 2).counter + 1 = (marked.eventQueue 2).divider ∧
      (marked.eventQueue 3).counter + 1 ≠ (marked.eventQueue 3).divider ∧
      (marked.eventQueue 2).mark = true ∧ (marked.eventQueue 3).mark = true ∧
      s.phase = .operating ∧ s.gen.line + 1 = s.gen.vspan ∧ s.gen.openDue = false ∧
      s.gen.closeDue = false ∧ s.store = [] ∧ t.gen.latch = false ∧
      t.gen.openDue = false ∧ t.gen.closeDue = false ∧ u.gen.openDue = false ∧
      u.gen.closeDue = false ∧ u.gen.run = .stopping := by
  decide +kernel

theorem witness_BoundaryReleasesTheDueRecord :
    let x : PendingRecord := { slot := 232, value := 1, target := 101, dispatch := 101,
                               batch := ref1, position := 1, state := .waiting }
    let y : PendingRecord := { x with slot := 0, position := 2 }
    let s := ((running .running .free 1099 .closed bench).setContext 0 0 (sealedBatch 2))
    let l := s.setStore ([] ++ x :: [{ y with dispatch := 102 }])
    let d := s.setStore ([] ++ y :: [])
    let full := d.setQueue 0 (List.replicate 32 (entry .now 1 (.client 0 3)))
    let last := (l.setContext 0 0 (sealedBatch 1)).setStore [x]
    last.sealedContext ref1 = some 0 ∧ (last.context 0 0).unresolved = 1 ∧
      (∀ k : Client, (last.eventQueue k).mark = false) ∧ l.sealedContext ref1 = some 0 ∧ (l.slot 232).device = none ∧
      2 ≤ (l.context 0 0).unresolved ∧ l.gen.c + 1 = 101 ∧ l.gen.openDue = false ∧
      l.gen.closeDue = false ∧ (d.slot 0).device = some 0 ∧ (d.queue 0).length < 32 ∧
      32 ≤ (full.queue 0).length ∧ ∀ z ∈ full.queue 0, z.waitsFor 0 = false := by
  decide +kernel

/-- A boundary to epoch 101 with client 1's batch 4 sealed beside client 0's batch 1. -/
def boundaryOf (store : List PendingRecord) (queue : List Entry) : State :=
  (((running .running .free 1099 .closed bench).setContext 0 0 (sealedBatch 2)).setContext 1 3
    { sealedBatch 2 with id := 4 }).setStore store |>.setQueue 0 queue

theorem witness_BoundaryReleasesTheDueRecord_superseding :
    let x := recordOf 0 101 1 .waiting
    let z := { recordOf 0 99 5 .deferred with batch := ref4 }
    let full := List.replicate 32 (entry .now 1 (.client 0 3))
    let a := boundaryOf [z, x] full
    let old := entry .write 0 (.record ref4 5)
    let b := boundaryOf [{ z with state := .released }, x] [entry .now 1 (.client 0 3), old]
    let direct := entry .now 0 (.client 3 9)
    let c := boundaryOf [x] [direct]
    a.phase = .operating ∧ a.gen.line + 1 = a.gen.vspan ∧ a.gen.openDue = false ∧
      a.gen.closeDue = false ∧ RecordsDistinct a ∧ a.dueRecords 101 = [x] ∧
      a.sealedContext ref1 = some 0 ∧ a.sealedContext ref4 = some 3 ∧ ref4 ≠ x.batch ∧
      (a.slot 0).device = some 0 ∧ (∀ y ∈ a.queue 0, y.waitsFor 0 = false) ∧
      (∀ y ∈ a.store, y.state = .deferred → y.slot = 0 → y = z) ∧
      2 ≤ (a.context 1 3).unresolved ∧
      ((a.setContext 1 3 { sealedBatch 1 with id := 4 }).context 1 3).unresolved = 1 ∧
      RecordsDistinct b ∧ b.dueRecords 101 = [x] ∧
      b.queue 0 = [entry .now 1 (.client 0 3)] ++ old :: [] ∧
      (∀ y ∈ b.store, y.state = .deferred → y.slot ≠ 0) ∧
      (entry .now 1 (.client 0 3)).waitsFor 0 = false ∧ c.dueRecords 101 = [x] ∧
      c.queue 0 = [] ++ direct :: [] := by
  refine ⟨?_, ?_, ?_, ?_, ?_, ?_, ?_, ?_, ?_, ?_, ?_, ?_, ?_, ?_, ?_, ?_, ?_, ?_, ?_, ?_, ?_⟩ <;>
    decide +kernel

theorem witness_BoundaryReleasesTheDueRecord_several :
    let x := recordOf 0 101 1 .waiting
    let y := recordOf 2 101 2 .waiting
    let s := boundaryOf [x, y] (List.replicate 31 (entry .now 1 (.client 0 3)))
    RecordsDistinct s ∧ s.dueRecords 101 = [x, y] ∧ ([x, y].map (·.slot)).Nodup ∧
      (∀ z ∈ [x, y], (s.slot z.slot).device ≠ none ∧
        ∀ b : BusNo, ∀ e ∈ s.queue b, e.waitsFor z.slot = false) ∧
      [x, y].filter (fun z => s.slotBus z.slot == some 0) = [x, y] ∧
      [x, y].take (32 - (s.queue 0).length) = [x] := by
  decide +kernel

theorem witness_TriggerActsByRunState :
    let s := running .running .triggered 5 .shut bench
    let t := s.setGen { s.gen with latch := true, overruns := 65535 }
    let u := running .waitTrigger .triggered 0 .shut bench
    s.phase = .operating ∧ s.gen.edge = .rising ∧ s.gen.latch = false ∧ t.gen.latch = true ∧
      t.gen.overruns ≤ 65535 ∧ u.gen.run = .waitTrigger ∧ u.store = [] ∧
      (running .running .free 5 .shut bench).gen.mode = .free := by
  decide +kernel

/-! ### Witnesses: queues and buses -/

theorem witness_ReadDeviceAppendsAProbe :
    let i : Instr := .readDevice 1 7 0 255 4 1
    let j : Instr := .readDevice 1 7 7 0 1 0
    let k : Instr := .readDevice 1 7 0 256 1 0
    let bad : Instr := .readDevice 1 7 8 0 5 2
    let s := served 1 i bench
    InService 1 i s ∧ (s.device 0).isPresent = true ∧ (s.device 0).size = 1 ∧ s.probes 1 < 2 ∧
      (s.queue 0).length < 32 ∧ InService 1 i (s.setProbes 1 2) ∧ (s.setProbes 1 2).probes 1 = 2 ∧
      InService 1 j (served 1 j bench) ∧ (bench.device 7).isPresent = false ∧
      InService 1 k (served 1 k bench) ∧ InService 1 bad (served 1 bad bench) ∧
      32 ≤ ((s.setQueue 0 (List.replicate 32 (entry .now 1 (.client 0 3)))).queue 0).length := by
  decide +kernel

theorem witness_DefineDeviceWritesTheRecord :
    let i : Instr := .defineDevice 0 7 7 1 1 127 2 3
    let j : Instr := .defineDevice 0 7 0 0 0 0 0 0
    let l : Instr := .defineDevice 0 7 7 1 0 0x10 1 0
    let s := served 0 i bench
    InService 0 i s ∧ s.claims.token = some 0 ∧ s.gen.run = .stopped ∧ s.inUse 7 = false ∧
      (∀ e : DeviceNo, e ≠ 7 → (s.device e).isPresent = true → (s.device e).bus ≠ 1) ∧
      InService 0 j (served 0 j bench) ∧ bench.inUse 0 = true ∧
      InService 0 l (served 0 l bench) ∧ (bench.device 0).address = 0x10 := by
  decide +kernel

theorem witness_BusConfigAndRecoverActOnOneEngine :
    let i : Instr := .busConfig 0 7 1 2
    let j : Instr := .busRecover 0 7 0
    let t := served 0 j (onBus0 .fault none [] bench)
    InService 0 i (served 0 i bench) ∧ bench.claims.token = some 0 ∧ bench.gen.run = .stopped ∧
      InService 0 j t ∧ (t.engine 0).state = .fault ∧ InService 0 j (served 0 j bench) ∧
      (bench.engine 0).state ≠ .fault := by
  decide +kernel

/-- R115: two entries in one register block share a transfer, a third at another register does not. -/
theorem witness_CoalescedRunIsTheLongest :
    runBehind (entry .write 0 .detached) [entry .write 1 .detached, entry .write 3 .detached] =
      [entry .write 1 .detached] := by
  decide +kernel

theorem witness_TransferStartTakesTheHead :
    let q := [entry .write 0 .detached, entry .now 1 (.client 0 3)]
    let s := onBus0 .idle none q (running .running .free 16 .opened bench)
    let t := onBus0 .idle none q (running .running .free 900 .closed bench)
    s.phase = .operating ∧ s.queue 0 = entry .write 0 .detached :: [entry .now 1 (.client 0 3)] ∧
      (s.engine 0).state = .idle ∧ (∀ e ∈ s.queue 0, e.onBus = false) ∧
      s.gen.run.inEpoch = true ∧ s.gen.window = .opened ∧
      t.gen.run.inEpoch = true ∧ t.gen.window ≠ .opened ∧ bench.queue 0 = [] := by
  decide +kernel

theorem witness_TransferEndHandsTheResultOn :
    let carried (e : Entry) : Entry := { e with onBus := true, stamp := some 100 }
    let now := carried (entry .now 1 (.client 3 9))
    let probe := { carried (entry .probe 1 (.client 3 9)) with slot := none }
    let write := { carried (entry .write 0 (.record ref1 1)) with deadline := some 100 }
    let on (e : Entry) := onBus0 .transfer (some (transfer 1)) [e, entry .now 2 (.client 0 3)]
      ((running .running .free 20 .opened bench).setContext 0 0 (sealedBatch 2))
    let prime := { entry .prime 0 .priming with onBus := true }
    let primed (m : Mode) (n : Nat) := onBus0 .transfer (some (transfer 1)) [prime]
      (bench.setGen { bench.gen with
        run := .priming, mode := m, startEpoch := 5, primesOutstanding := n, issuer := some 0 })
    (on now).phase = .operating ∧ ((on now).engine 0).state = .transfer ∧
      ((on now).engine 0).xfer = some (transfer 1) ∧ ((on now).engine 0).limitExceeded = false ∧
      (on now).gen.run ≠ .priming ∧ (on now).queue 0 = now :: [entry .now 2 (.client 0 3)] ∧
      (on now).deferredSet 0 = [] ∧ (transfer 1).limit ≤ (transfer 1).made + 1 ∧
      (on probe).queue 0 = probe :: [entry .now 2 (.client 0 3)] ∧ probe.kind = .probe ∧
      (on write).sealedContext ref1 = some 0 ∧ 2 ≤ ((on write).context 0 0).unresolved ∧
      write.late = false ∧ write.stamp = write.deadline ∧
      (((on write).setContext 0 0 (sealedBatch 1)).context 0 0).unresolved = 1 ∧
      (primed .free 2).gen.run = .priming ∧ (primed .free 2).gen.primeList = [] ∧
      (primed .free 2).queue 0 = prime :: [] ∧ prime.discarded = false ∧
      2 ≤ (primed .free 2).gen.primesOutstanding ∧
      (primed .triggered 1).gen.primesOutstanding = 1 ∧
      (primed .triggered 1).gen.mode = .triggered ∧ (primed .free 1).gen.mode = .free ∧
      (primed .free 1).store = [] ∧ (∀ c : BusNo, (primed .free 1).deferredSet c = []) ∧
      (∀ j : Client, ((primed .free 1).eventQueue j).mark = false) := by
  decide +kernel

/-- Client 0's WRITE for slot 0 and client 3's NOW for slot 1, ON_BUS. -/
def carriedPair : List Entry :=
  [{ entry .write 0 (.record ref1 1) with onBus := true, deadline := some 100 },
   { entry .now 1 (.client 3 9) with onBus := true }]

/-- The 30 entries that wait behind them. -/
def behindPair : List Entry := List.replicate 30 (entry .probe 1 (.client 2 7))

/-- A coalesced transfer of the pair with a deferred record behind the full queue. -/
def coalesced (e : EngineState) : State :=
  (onBus0 e (some (transfer 2)) (carriedPair ++ behindPair)
    ((running .running .free 20 .opened bench).setContext 0 0 (sealedBatch 1))).setStore
    [recordOf 0 100 1 .released, recordOf 2 99 2 .deferred]

theorem witness_TransferCarries (done : Bool) (e : EngineState) :
    TransferCarries 0 done carriedPair behindPair (coalesced e) where
  queue := by cases e <;> decide +kernel
  carried := by decide +kernel
  slots := by decide +kernel
  records := by cases e <;> decide +kernel
  books := by
    intro r n h
    by_cases h1 : r = ref1
    · subst h1; revert n; cases e <;> decide +kernel
    · have g : (some ref1 == some r) = false := by simpa using fun h => h1 h.symm
      simp [carriedPair, entry, Entry.batchOf, g]
  priming := fun h => absurd h (by cases e <;> decide +kernel)

theorem witness_TransferEndHandsTheResultOn_coalesced :
    let s := coalesced .transfer
    s.phase = .operating ∧ (s.engine 0).state = .transfer ∧
      (s.engine 0).xfer = some (transfer 2) ∧ (s.engine 0).limitExceeded = false ∧
      (transfer 2).limit ≤ (transfer 2).made + 1 ∧
      enteringBehind s 0 behindPair =
        [recordOf 2 99 2 .deferred] := by
  decide +kernel

theorem witness_WriteOutcomeFollowsTheTable :
    let e := { entry .write 0 (.record ref1 1) with deadline := some 100, stamp := some 100 }
    e.kind = .write ∧ e.origin = .record ref1 1 ∧ e.deadline = some 100 ∧ e.late = false ∧
      e.stamp = some 100 ∧ ({ e with stamp := none } : Entry).stamp ≠ some 100 ∧
      ({ e with late := true } : Entry).late = true := by
  decide

theorem witness_FailedAttemptsAreMadeAgain :
    let s := onBus0 .transfer (some (transfer 0)) [entry .now 1 (.client 0 3)] bench
    let t := s.setEngine 0 { s.engine 0 with stretching := true, stretchCount := 2 }
    let u := s.setEngine 0 { s.engine 0 with stretching := true, stretchCount := 1 }
    s.phase = .operating ∧ (s.engine 0).state = .transfer ∧
      (s.engine 0).xfer = some (transfer 0) ∧ (s.engine 0).limitExceeded = false ∧
      (transfer 0).made + 1 < (transfer 0).limit ∧
      (transfer 0).wire = [.start, .send 0x20] ++ .send 0x00 :: [.send 0x07, .stop] ∧
      ([.start, .send 0x20] : List WireItem).countP (·.isSend) = 1 ∧ (t.engine 0).stretching = true ∧
      (t.engine 0).stretchCount = 2 ∧ (u.engine 0).stretchCount ≠ 2 := by
  decide +kernel

theorem witness_RecoveryEndFreesOrFaultsTheBus :
    let s := onBus0 .recovery none [] bench
    let t := onBus0 .recovery (some (transfer 1)) [entry .now 1 (.client 0 3)] bench
    let x := s.setEngine 0 { s.engine 0 with stretching := true, stretchCount := 2 }
    (x.engine 0).state = .recovery ∧ (x.engine 0).xfer = none ∧ (x.engine 0).stretching = true ∧
      (x.engine 0).stretchCount = 2 ∧ (bench.engine 0).state = .idle ∧
      s.phase = .operating ∧ (s.engine 0).limitExceeded = false ∧ (s.engine 0).state = .recovery ∧
      (s.engine 0).xfer = none ∧ (t.engine 0).state = .recovery ∧
      (t.engine 0).xfer = some (transfer 1) ∧ (transfer 1).made < (transfer 1).limit ∧
      (bench.engine 0).state ≠ .recovery := by
  decide +kernel

theorem witness_RecoveryEndFreesOrFaultsTheBus_transfer :
    let s := coalesced .recovery
    let x := s.setEngine 0 { s.engine 0 with stretching := true, stretchCount := 2 }
    (s.engine 0).state = .recovery ∧ (s.engine 0).limitExceeded = false ∧
      (s.engine 0).xfer = some (transfer 2) ∧ (transfer 2).limit ≤ (transfer 2).made ∧
      (x.engine 0).stretching = true ∧ (x.engine 0).stretchCount = 2 ∧
      (transfer 1).made < (transfer 1).limit := by
  decide +kernel

/-! ### Witnesses: Event Queues and ports -/

/-- A queue of `n` records with `lost` lost. -/
def queueOf (n lost : Nat) : EventQueue :=
  { EventQueue.reset with
    records := List.replicate n { event := .epochMark 1, sequence := 0, stamp := 1 }, lost := lost }

theorem witness_OfferedRecordIsKeptOrLost :
    ((bench.setEventQueue 1 (queueOf 15 0)).eventQueue 1).records.length < 16 ∧
      16 ≤ ((bench.setEventQueue 1 (queueOf 16 255)).eventQueue 1).records.length ∧
      ((bench.setEventQueue 1 (queueOf 16 255)).eventQueue 1).lost ≤ 255 := by
  decide +kernel

theorem witness_FetchReturnsTheOldestRecords :
    let i : Instr := .fetch 1 7 2
    let s := (served 1 i bench).setEventQueue 1 (queueOf 16 3)
    let t := (served 1 i bench).setEventQueue 1 (queueOf 1 0)
    InService 1 i s ∧ (s.eventQueue 1).records =
        List.replicate 2 { event := .epochMark 1, sequence := 0, stamp := 1 } ++
          List.replicate 14 { event := .epochMark 1, sequence := 0, stamp := 1 } ∧
      (s.eventQueue 1).lost ≠ 0 ∧ InService 1 i t ∧ (t.eventQueue 1).records.length = 1 ∧
      (t.eventQueue 1).lost = 0 ∧ InService 1 (.fetch 1 7 3) (served 1 (.fetch 1 7 3) bench) := by
  decide +kernel

theorem witness_SubscribeReplacesTheSubscriptions :
    let i : Instr := .subscribe 1 7 7 255
    let j : Instr := .subscribe 1 7 4 0
    InService 1 i (served 1 i bench) ∧ (7 : Byte).toNat < 8 ∧ (7 : Byte).getLsbD 2 = true ∧
      InService 1 j (served 1 j bench) ∧ (4 : Byte).getLsbD 2 = true := by
  decide +kernel

theorem witness_DetachGivesUpStandingState :
    let i : Instr := .detach 0 7
    let s := served 0 i ((onBus0 .transfer (some (transfer 0))
      [{ entry .now 1 (.client 0 3) with onBus := true }, entry .now 1 (.client 0 4),
        entry .write 0 (.record ref1 1), { entry .probe 1 (.client 3 5) with slot := none }]
      bench).setContext 0 1 (openBatchOf []))
    InService 0 i s ∧ OpenAt 0 1 s ∧ s.claims.token = some 0 ∧
      (s.queue 0).countP (fun e => e.detachRemoves 0) = 1 ∧ s.gen.run ≠ .priming := by
  decide +kernel

theorem witness_MessagesAreTakenOrRefused :
    let two := (bench.setPort 1 { bench.port 1 with lock := .twoWire })
    let four := (bench.setPort 1 { bench.port 1 with
      lock := .fourWire, state := .working, request := some [0x22, 1] })
    let nacked := two.setPort 1 { two.port 1 with judged := some false }
    let busy := served 0 (.readSlot 0 7 0) two
    two.phase = .operating ∧ (two.port 1).lock = .twoWire ∧ (two.port 1).strap = 0x58 ∧
      (two.port 1).state = .ready ∧ parseRefusal [0x99] = some .badCode ∧
      parseRefusal [0x22] = some .badLength ∧ parseRefusal [0x22, 0] = none ∧
      busy.host.inService ≠ none ∧ (busy.port 1).state = .ready ∧
      (four.port 1).state = .working ∧ (four.port 1).lock = .fourWire ∧
      two.host.inService = none ∧ two.host.pointer + 1 = 1 ∧ (two.port 0).state = .ready ∧
      (nacked.port 1).judged = some false := by
  decide +kernel

theorem witness_PortTransactionsShowTheResponse :
    let two := (bench.setPort 1 { bench.port 1 with lock := .twoWire })
    let four := (bench.setPort 1 { bench.port 1 with lock := .fourWire })
    two.phase = .operating ∧ (two.port 1).lock = .twoWire ∧ (0x58 : BitVec 7) = (two.port 1).strap ∧
      (four.port 1).lock = .fourWire ∧ (bench.port 1).lock = .undetermined ∧
      bench.hostDataOut 1 = .released ∧
      (bench.port 1).underWay = false ∧ (bench.port 1).awaitsFall = false ∧
      ((bench.setPort 1 { bench.port 1 with awaitsFall := true }).port 1).awaitsFall = true ∧
      ((bench.setPort 1 { bench.port 1 with underWay := true }).port 1).underWay = true := by
  decide +kernel

/-! ### Witnesses: ticks and reset -/

theorem witness_TickCountsLeasesAndStretches :
    let s := onBus0 .transfer (some (transfer 0)) [] (bench.setLease 2 { setting := 8, counter := 2 })
    let t := ((s.setLease 0 { setting := 8, counter := 1 }).setOwner 2 (some 0)).setContext 0 0
      (openBatchOf [])
    s.phase = .operating ∧ (∀ k : Client, (s.lease k).setting = 0 ∨ (s.lease k).counter ≠ 1) ∧
      (t.lease 0).setting ≠ 0 ∧ (t.lease 0).counter = 1 ∧ t.owner 2 = some 0 ∧ OpenAt 0 0 t ∧
      (∀ n : Fin 4, (s.context 0 n).state ≠ .opened) ∧ (s.engine 0).state = .transfer ∧ (s.engine 1).state = .idle := by
  decide +kernel

theorem witness_LeaseLapseGivesUpClaims :
    let s := (bench.setLease 0 { setting := 8, counter := 1 }).setContext 0 0 (openBatchOf [])
    s.phase = .operating ∧ (s.lease 0).setting ≠ 0 ∧ (s.lease 0).counter = 1 ∧ OpenAt 0 0 s ∧
      (s.lease 1).setting = 0 := by
  decide +kernel

theorem witness_ResetAndStartupTakeTheirPhases :
    (ResetCause.powerUp ≠ .shortPulse) ∧ ({ bench with phase := .held } : State).phase = .held ∧
      ({ bench with phase := .startup } : State).phase ≠ .operating := by
  decide

/-! ### Witnesses: the laws that steps keep -/

theorem witness_TablesChangeOnlyByTheirCommands : ∃ t, exec .lineAdvance State.reset = .next t :=
  ⟨_, rfl⟩

/-! Each law of `KeptByEveryStep` holds in a state that is not the reset state. -/

theorem witness_EveryStepKeepsCapacities :
    StoresWithinCapacity bench ∧ EventQueuesWithinRules bench ∧ step bench = .next bench := by
  refine ⟨?_, ?_, rfl⟩
  · unfold StoresWithinCapacity; decide +kernel
  · unfold EventQueuesWithinRules EventQueue.WithinRules; decide +kernel

/-- A deferred record behind a full queue that holds a WAITING entry for another slot. -/
theorem witness_EveryStepKeepsCapacities_queues :
    let s := (onBus0 .idle none
      (entry .now 1 (.client 0 3) :: List.replicate 31 { entry .probe 1 (.client 2 7) with
        slot := none }) (bench.setContext 0 0 (sealedBatch 1))).setStore [recordOf 0 0 1 .deferred]
    BatchesWithinRules s ∧ NothingDangles s ∧ QueuesWithinRules s := by
  refine ⟨?_, ⟨?_, ?_, ?_, ?_, ?_, ?_⟩, ⟨?_, ?_, ?_, ?_, ?_, ?_⟩⟩
  · unfold BatchesWithinRules Batch.WithinRules; decide +kernel
  all_goals decide +kernel

theorem witness_EveryStepKeepsTheSchedule :
    GeneratorWithinRules bench ∧ OutputsWithinRules bench := by
  refine ⟨?_, ?_⟩
  · unfold GeneratorWithinRules; decide +kernel
  · unfold OutputsWithinRules; decide +kernel

theorem witness_EveryStepKeepsPortsAndClaims :
    PortsWithinRules bench ∧ ClaimTableWithinRules bench := by
  refine ⟨⟨fun k => ⟨?_, ?_, ?_, ?_⟩, ?_⟩, ?_⟩
  · revert k; decide +kernel
  · revert k; decide +kernel
  · have h : (bench.port k).request = none := by revert k; decide +kernel
    simp [h]
  · revert k; decide +kernel
  · decide +kernel
  · unfold ClaimTableWithinRules; decide +kernel

theorem witness_EveryStepKeepsBatches :
    BatchesWithinRules ((bench.setContext 0 0 (openBatchOf [⟨2, 3, 2⟩])).setContext 1 1
      { sealedBatch 1 with count := 3, onTime := 1, failed := 1 }) := by
  unfold BatchesWithinRules Batch.WithinRules; decide +kernel

theorem witness_EveryStepKeepsTheTables :
    LocalSlotsWithinRules bench ∧ ValuesAdmissible bench ∧ NothingDangles bench := by
  refine ⟨?_, ?_, ?_⟩
  · unfold LocalSlotsWithinRules LocalDescriptor
    decide +kernel
  · unfold ValuesAdmissible; decide +kernel
  · refine ⟨?_, ?_, ?_, ?_, ?_, ?_⟩ <;> decide +kernel

theorem witness_EveryStepKeepsTransfers : TransfersWithinRules
    (onBus0 .transfer (some (transfer 0))
      [{ entry .now 1 (.client 0 3) with onBus := true }, entry .now 1 (.client 0 4)] bench) := by
  intro b
  match b with
  | 0 =>
    refine ⟨⟨[{ entry .now 1 (.client 0 3) with onBus := true }], [entry .now 1 (.client 0 4)],
      ?_⟩, ?_⟩ <;> decide +kernel
  | 1 => refine ⟨⟨[], [], ?_⟩, ?_⟩ <;> decide +kernel

end Sys2Proof.Tests
end

section
/-! PROOFS. The statements on the Claim Table (chapter 2): a range of slots as an ascending list, the
effect of claiming a list of slots, one lemma for each answer a rule can give, and the statements
O12, O14, O15 and O17 from them. -/

namespace Sys2Proof.ClaimTable

open Sys2Proof Sys2Proof.Machine

/-! ### The answer of a request in service -/

/-- R163: what a request in service comes to, when its rule answers and offers no event record. A
refusal is the answer whose state is the one the rule began with. -/
theorem exec_eq_of_answer {k : Client} {i : Instr} {body : Service} {s t : State} {status : Status}
    {payload : List Byte} (hexec : exec i s = .next (request k i body s)) (h : InService k i s)
    (hbody : body s = answer (begin t) status payload) :
    exec i s = .next (endService k (tagOf i) (codeOf i) ⟨status, payload⟩ t) := by
  rw [hexec, request_inService body h, hbody, answer_work, answer_reply, begin_finish]

/-! ### The schedule token (R25, R26) -/

theorem serveClaimSchedule_unheld {k : Client} {s : State} (h : s.claims.token = none) :
    serveClaimSchedule k s = answer (begin (s.setToken (some k))) .ok := by
  simp [serveClaimSchedule, h]

theorem serveClaimSchedule_own {k : Client} {s : State} (h : s.claims.token = some k) :
    serveClaimSchedule k s = answer (begin s) .ok := by
  simp [serveClaimSchedule, h]

theorem serveClaimSchedule_other {k j : Client} {s : State} (h : s.claims.token = some j)
    (hj : j ≠ k) : serveClaimSchedule k s = refuse s .heldBy [byteOf j.val] := by
  simp [serveClaimSchedule, h, hj]

theorem serveReleaseSchedule_held {k : Client} {s : State} (h : s.claims.token = some k) :
    serveReleaseSchedule k s = answer (begin (s.setToken none)) .ok := by
  simp [serveReleaseSchedule, h]

theorem serveReleaseSchedule_notHeld {k : Client} {s : State} (h : s.claims.token ≠ some k) :
    serveReleaseSchedule k s = refuse s .noToken := by
  simp [serveReleaseSchedule, h]

/-- Settles O14: the three cases of R25 are the token unheld, the requester's, and another's. -/
theorem claimScheduleTakesTheToken : Obligations.ClaimScheduleTakesTheToken := by
  intro k tag s h
  refine ⟨fun hfree => ?_, fun hown => ?_, fun j hheld hj => ?_⟩
  · exact exec_eq_of_answer rfl h (serveClaimSchedule_unheld hfree)
  · exact exec_eq_of_answer rfl h (serveClaimSchedule_own hown)
  · exact exec_eq_of_answer rfl h (serveClaimSchedule_other hheld hj)

/-- Settles O15: the two cases of R26 are the token held by the requester or not. -/
theorem releaseScheduleGivesTheTokenUp : Obligations.ReleaseScheduleGivesTheTokenUp := by
  intro k tag s h
  refine ⟨fun hheld => ?_, fun hnot => ?_⟩
  · exact exec_eq_of_answer rfl h (serveReleaseSchedule_held hheld)
  · exact exec_eq_of_answer rfl h (serveReleaseSchedule_notHeld hnot)

/-! ### The lease (R28) -/

theorem settingOk_iff (n : Nat) : settingOk n = true ↔ n = 0 ∨ 8 ≤ n ∧ n ≤ 255 := by
  simp [settingOk]

theorem serveSetLease_legal {k : Client} {setting : Half} {s : State}
    (h : settingOk setting.toNat = true) :
    serveSetLease k setting s =
      answer (begin (s.setLease k { setting := setting.toNat, counter := setting.toNat })) .ok
        (countBytes (s.lease k).setting) := by
  simp [serveSetLease, h]

theorem serveSetLease_illegal {k : Client} {setting : Half} {s : State}
    (h : ¬ settingOk setting.toNat = true) : serveSetLease k setting s = refuse s .badValue := by
  simp [serveSetLease, h]

/-- Settles O17: a setting is legal exactly at 0 and from 8 to 255. -/
theorem setLeaseSetsSettingAndCounter : Obligations.SetLeaseSetsSettingAndCounter := by
  intro k tag setting s h
  refine ⟨fun hlegal => ?_, fun hbad => ?_⟩
  · exact exec_eq_of_answer rfl h (serveSetLease_legal ((settingOk_iff _).mpr hlegal))
  · have hbad : ¬ settingOk setting.toNat = true := by
      rw [settingOk_iff]
      omega
    exact exec_eq_of_answer rfl h (serveSetLease_illegal hbad)

/-! ### A range of slots (R22 step 1, R23) -/

theorem rangeOk_iff (first count : Byte) : rangeOk first count = true ↔
    1 ≤ count.toNat ∧ count.toNat ≤ 64 ∧ first.toNat + count.toNat ≤ 256 := by
  simp only [rangeOk, Bool.and_eq_true, decide_eq_true_eq]
  omega

theorem mem_slotRange {first count : Nat} {i : SlotNo} :
    i ∈ slotRange first count ↔ first ≤ i.val ∧ i.val < first + count := by
  simp only [slotRange, List.mem_filterMap, List.mem_range, Option.dite_none_right_eq_some,
    Option.some.injEq]
  constructor
  · rintro ⟨j, hj, hlt, rfl⟩
    dsimp only
    omega
  · rintro ⟨hlow, hhigh⟩
    exact ⟨i.val - first, by omega, by omega, Fin.ext (by dsimp only; omega)⟩

theorem slotRange_ascending (first count : Nat) : (slotRange first count).Pairwise (· < ·) := by
  refine List.pairwise_lt_range.filterMap _ fun a b hab x hx y hy => ?_
  simp only [Option.dite_none_right_eq_some, Option.some.injEq] at hx hy
  obtain ⟨ha, rfl⟩ := hx
  obtain ⟨hb, rfl⟩ := hy
  exact Nat.add_lt_add_left hab first

/-- A range is the slots of the table that lie in it, in the table's order. -/
theorem slotRange_eq_filter (first count : Nat) : slotRange first count =
    (List.finRange 256).filter (fun i => first ≤ i.val && i.val < first + count) := by
  refine (slotRange_ascending first count).eq_of_mem_iff
    ((List.pairwise_lt_finRange 256).filter _) fun i => ?_
  simp [mem_slotRange]

theorem countP_slotRange (p : SlotNo → Bool) (first count : Nat) :
    (slotRange first count).countP p = (List.finRange 256).countP
      (fun i => first ≤ i.val && i.val < first + count && p i) := by
  rw [slotRange_eq_filter, List.countP_filter]
  exact List.countP_congr fun i _ => by rw [Bool.and_comm]

/-- In an ascending list the search finds the least element with the property. -/
theorem find?_eq_some_of_ascending {l : List SlotNo} {p : SlotNo → Bool} {i : SlotNo}
    (hl : l.Pairwise (· < ·)) (hi : i ∈ l) (hp : p i = true)
    (hleast : ∀ j ∈ l, j < i → p j = false) : l.find? p = some i := by
  obtain ⟨front, back, rfl⟩ := List.append_of_mem hi
  rw [List.find?_eq_some_iff_append]
  refine ⟨hp, front, back, rfl, fun j hj => ?_⟩
  have hji : j < i := (List.pairwise_append.mp hl).2.2 j hj i List.mem_cons_self
  rw [hleast j (List.mem_append_left _ hj) hji, Bool.not_false]

/-! ### The ownership check (R21) -/

theorem heldByOther_eq_false_iff {s : State} {k : Client} {i : SlotNo} :
    s.heldByOther k i = false ↔ FreeFor k s i := by
  unfold State.heldByOther FreeFor
  cases s.owner i <;> simp

theorem heldByOther_of_owner {s : State} {k j : Client} {i : SlotNo} (h : s.owner i = some j)
    (hj : j ≠ k) : s.heldByOther k i = true := by
  simp [State.heldByOther, h, hj]

/-! ### Claiming a list of slots (R22's effect) -/

/-- Client `k` becomes the owner of every slot of `slots`: the effect of `serveClaim`. -/
def claimSlots (k : Client) (slots : List SlotNo) (s : State) : State :=
  slots.foldl (fun s i => s.setOwner i (some k)) s

theorem claimSlots_cons (k : Client) (a : SlotNo) (slots : List SlotNo) (s : State) :
    claimSlots k (a :: slots) s = claimSlots k slots (s.setOwner a (some k)) := rfl

theorem claimSlots_owner (k : Client) (slots : List SlotNo) (s : State) (i : SlotNo) :
    (claimSlots k slots s).owner i = if i ∈ slots then some k else s.owner i := by
  induction slots generalizing s with
  | nil => simp [claimSlots]
  | cons a slots ih =>
    rw [claimSlots_cons, ih, State.setOwner_owner]
    by_cases hmem : i ∈ slots
    · simp [hmem]
    · simp [hmem, eq_comm]

/-- Claiming changes the owner entries and nothing else. -/
theorem claimSlots_frame (k : Client) (slots : List SlotNo) (s : State) :
    claimSlots k slots s =
      { s with claims := { s.claims with owner := (claimSlots k slots s).claims.owner } } := by
  induction slots generalizing s with
  | nil => rfl
  | cons a slots ih => exact ih (s.setOwner a (some k))

/-! ### The checks of CLAIM in their order (R22) -/

theorem serveClaim_badRange {k : Client} {first count : Byte} {s : State}
    (h : ¬ rangeOk first count = true) : serveClaim k first count s = refuse s .badValue := by
  simp [serveClaim, h]

section
variable {k : Client} {first count : Byte} {s : State}

theorem serveClaim_undefinedSlot {i : SlotNo} (hok : rangeOk first count = true)
    (hfind : (slotRange first.toNat count.toNat).find? (fun i => !(s.slot i).defined) = some i) :
    serveClaim k first count s = refuse s .undefinedSlot [byteOf i.val] := by
  simp only [serveClaim, hok, hfind, Bool.not_true, Bool.false_eq_true, if_false]

theorem serveClaim_heldBy {i : SlotNo} (hok : rangeOk first count = true)
    (hdefined : (slotRange first.toNat count.toNat).find? (fun i => !(s.slot i).defined) = none)
    (hfind : (slotRange first.toNat count.toNat).find? (s.heldByOther k) = some i) :
    serveClaim k first count s = refuse s .heldBy [byteOf i.val, clientByte (s.owner i)] := by
  simp only [serveClaim, hok, hdefined, hfind, Bool.not_true, Bool.false_eq_true, if_false]

theorem serveClaim_granted (hok : rangeOk first count = true)
    (hdefined : (slotRange first.toNat count.toNat).find? (fun i => !(s.slot i).defined) = none)
    (hfree : (slotRange first.toNat count.toNat).find? (s.heldByOther k) = none) :
    serveClaim k first count s =
      answer (begin (claimSlots k (slotRange first.toNat count.toNat) s)) .ok
        [byteOf ((slotRange first.toNat count.toNat).countP (fun i => s.owner i == none))] := by
  simp only [serveClaim, hok, hdefined, hfree, Bool.not_true, Bool.false_eq_true, if_false,
    claimSlots]

/-- R22 step 2 finds the lowest undefined slot of the range. -/
theorem find?_undefined_eq_some {i : SlotNo} (hlow : first.toNat ≤ i.val)
    (hhigh : i.val < first.toNat + count.toNat) (hi : (s.slot i).defined = false)
    (hbelow : ∀ j : SlotNo, first.toNat ≤ j.val → j < i → (s.slot j).defined = true) :
    (slotRange first.toNat count.toNat).find? (fun i => !(s.slot i).defined) = some i := by
  refine find?_eq_some_of_ascending (slotRange_ascending _ _) (mem_slotRange.mpr ⟨hlow, hhigh⟩)
    (by rw [hi, Bool.not_false]) fun j hj hji => ?_
  rw [hbelow j (mem_slotRange.mp hj).1 hji, Bool.not_true]

theorem find?_undefined_eq_none
    (h : ∀ i : SlotNo, first.toNat ≤ i.val → i.val < first.toNat + count.toNat →
      (s.slot i).defined = true) :
    (slotRange first.toNat count.toNat).find? (fun i => !(s.slot i).defined) = none := by
  refine List.find?_eq_none.mpr fun i hi => ?_
  obtain ⟨hlow, hhigh⟩ := mem_slotRange.mp hi
  simp [h i hlow hhigh]

/-- R22 step 3 finds the lowest slot of the range that another client owns. -/
theorem find?_heldByOther_eq_some {i : SlotNo} {j : Client} (hlow : first.toNat ≤ i.val)
    (hhigh : i.val < first.toNat + count.toNat) (howner : s.owner i = some j) (hj : j ≠ k)
    (hbelow : ∀ m : SlotNo, first.toNat ≤ m.val → m < i → FreeFor k s m) :
    (slotRange first.toNat count.toNat).find? (s.heldByOther k) = some i :=
  find?_eq_some_of_ascending (slotRange_ascending _ _) (mem_slotRange.mpr ⟨hlow, hhigh⟩)
    (heldByOther_of_owner howner hj) fun m hm hmi =>
      heldByOther_eq_false_iff.mpr (hbelow m (mem_slotRange.mp hm).1 hmi)

theorem find?_heldByOther_eq_none
    (h : ∀ i : SlotNo, first.toNat ≤ i.val → i.val < first.toNat + count.toNat → FreeFor k s i) :
    (slotRange first.toNat count.toNat).find? (s.heldByOther k) = none := by
  refine List.find?_eq_none.mpr fun i hi => ?_
  obtain ⟨hlow, hhigh⟩ := mem_slotRange.mp hi
  simp [heldByOther_eq_false_iff.mpr (h i hlow hhigh)]

end

/-- Settles O12: the checks of R22 in their order, each search finding the lowest offending slot
because a range is ascending; with all passed, the whole range is claimed. -/
theorem claimTakesTheWholeRange : Obligations.ClaimTakesTheWholeRange := by
  intro k tag first count s h
  refine ⟨fun hbad => ?_, fun hone hmax hend => ?_⟩
  · have hbad : ¬ rangeOk first count = true := by
      rw [rangeOk_iff]
      omega
    exact exec_eq_of_answer rfl h (serveClaim_badRange hbad)
  have hok : rangeOk first count = true := (rangeOk_iff first count).mpr ⟨hone, hmax, hend⟩
  refine ⟨fun i hlow hhigh hi hbelow => ?_, fun hdefined => ?_⟩
  · exact exec_eq_of_answer rfl h
      (serveClaim_undefinedSlot hok (find?_undefined_eq_some hlow hhigh hi hbelow))
  have hdefined := find?_undefined_eq_none hdefined
  refine ⟨fun i j hlow hhigh howner hj hbelow => ?_, fun hfree => ?_⟩
  · have hserve := serveClaim_heldBy hok hdefined
      (find?_heldByOther_eq_some hlow hhigh howner hj hbelow)
    rw [howner] at hserve
    exact exec_eq_of_answer rfl h hserve
  · have hserve := serveClaim_granted hok hdefined (find?_heldByOther_eq_none hfree)
    rw [countP_slotRange] at hserve
    refine ⟨claimSlots k (slotRange first.toNat count.toNat) s,
      exec_eq_of_answer rfl h hserve, fun i => ?_, claimSlots_frame k _ s⟩
    simp only [claimSlots_owner, mem_slotRange]

end Sys2Proof.ClaimTable
end

section
/-! PROOFS. The statement on the Dispatch Queues (chapter 6): the outcome that the table of R118 gives
a record, one lemma for each row of an entry that ends DONE, what handing on such an entry comes to,
and the statement O41 from them. -/

namespace Sys2Proof.DispatchQueues

open Sys2Proof Sys2Proof.Machine

/-! ### The table of R118 -/

section

variable {e : Entry} {d : Epoch}

theorem doneOutcome_of_stamp_eq (hlate : e.late = false) (hdeadline : e.deadline = some d)
    (hstamp : e.stamp = some d) : e.doneOutcome = .onTime := by
  simp [Entry.doneOutcome, hlate, hdeadline, hstamp]

/-- An entry without a start stamp is among these. -/
theorem doneOutcome_of_stamp_ne (hdeadline : e.deadline = some d) (hstamp : e.stamp ≠ some d) :
    e.doneOutcome = .late := by
  simp [Entry.doneOutcome, hdeadline, hstamp]

theorem doneOutcome_of_late (hlate : e.late = true) : e.doneOutcome = .late := by
  simp [Entry.doneOutcome, hlate]

end

/-- R119 step 2: the slot of a WRITE entry that carries a record is updated first, and its record
resolved then. -/
theorem handOn_write_record {e : Entry} {r : BatchRef} {position : Nat} (hkind : e.kind = .write)
    (horigin : e.origin = .record r position) (done : Bool) (bytes : List Byte) (w : Work) :
    handOn e done bytes w = resolve r position (if done then e.doneOutcome else .failed)
      (w.update (completeSlot e done)) := by
  simp [handOn, endWrite, hkind, horigin]

/-- Settles O41: the outcome with which the record is resolved is FAILED for a failed transfer, and the
row of R118 that the entry's late flag and start stamp select for one that is done. -/
theorem writeOutcomeFollowsTheTable : Obligations.WriteOutcomeFollowsTheTable := by
  intro e done r position d o w hkind horigin hdeadline hrow bytes
  rw [handOn_write_record hkind horigin]
  rcases hrow with ⟨rfl, hlate, hstamp, rfl⟩ | ⟨rfl, -, hstamp, rfl⟩ | ⟨rfl, hlate, rfl⟩ | ⟨rfl, rfl⟩
  · rw [if_pos rfl, doneOutcome_of_stamp_eq hlate hdeadline hstamp]
  · rw [if_pos rfl, doneOutcome_of_stamp_ne hdeadline hstamp]
  · rw [if_pos rfl, doneOutcome_of_late hlate]
  · rw [if_neg Bool.false_ne_true]

end Sys2Proof.DispatchQueues
end


section
/-! PROOFS. What every command runs: one rule for each request, one effect for each event, and how a
law of the tables is carried through a step from them. -/

set_option Elab.async false

namespace Sys2Proof.Commands

open Sys2Proof Sys2Proof.Machine

/-! ### The rule of a request and the law of a command -/

/-- The rule that serves a request, its token test included. An event has none. -/
def ruleOf : Instr → Service
  | .defineSlot k _ slot device register format kind min max initial =>
      withToken k (serveDefineSlot k slot device register format kind min max initial)
  | .undefineSlot k _ slot => withToken k (serveUndefineSlot k slot)
  | .readSlot _ _ slot => serveReadSlot slot
  | .writeNow k tag slot value => serveWriteNow k tag slot value
  | .claim k _ first count => serveClaim k first count
  | .release k _ first count => serveRelease k first count
  | .claimSchedule k _ => serveClaimSchedule k
  | .releaseSchedule k _ => serveReleaseSchedule k
  | .revoke k _ named => withToken k (serveRevoke k named)
  | .setLease k _ setting => serveSetLease k setting
  | .openBatch k _ target policy epoch => serveOpen k target policy epoch
  | .stage k _ slot value => serveStage k slot value
  | .stageRun k _ first count values => serveStageRun k first count values
  | .unstage k _ slot => serveUnstage k slot
  | .abort k _ => serveAbort k
  | .sealBatch k _ => serveSeal k
  | .cancel k _ id => serveCancel k id
  | .readBatch k _ id => serveReadBatch k id
  | .setGeometry k _ lspan vspan wopen wclose edge =>
      withToken k (serveSetGeometry lspan vspan wopen wclose edge)
  | .start k _ mode epoch => withToken k (serveStart k mode epoch)
  | .stop k _ option => withToken k (serveStop k option)
  | .resetSchedule k _ => withToken k (serveResetSchedule k)
  | .readSchedule _ _ => serveReadSchedule
  | .readOutputs _ _ => serveReadOutputs
  | .readDevice k tag device register width order =>
      serveReadDevice k tag device register width order
  | .readQueue _ _ bus => serveReadQueue bus
  | .defineDevice k _ device state bus address size retries =>
      withToken k (serveDefineDevice device state bus address size retries)
  | .busConfig k _ bus speed => withToken k (serveBusConfig bus speed)
  | .busRecover k _ bus => withToken k (serveBusRecover k bus)
  | .readBus _ _ bus => serveReadBus bus
  | .fetch k _ count => serveFetch k count
  | .subscribe k _ set divider => serveSubscribe k set divider
  | .detach k _ => serveDetach k
  | _ => fun s => refuse s .none

theorem exec_eq_request {i : Instr} {k : Client} (h : requestClient i = some k) (s : State) :
    exec i s = .next (request k i (ruleOf i) s) := by
  cases i <;> cases h <;> rfl

/-- A request in service is judged by its rule, and its service ends. -/
theorem exec_inService {i : Instr} {k : Client} {s : State} (hk : requestClient i = some k)
    (h : InService k i s) :
    exec i s = .next (endService k (tagOf i) (codeOf i) (ruleOf i s).2 (ruleOf i s).1.finish) := by
  rw [exec_eq_request hk, request_inService _ h]

/-- `P` does not look at the ports, the phase, the waiting commands or the draws, and neither a lease
reload nor an offered record can break it. -/
structure TableLaw (P : State → Prop) : Prop where
  host : ∀ (s : State) (h : HostSide), P s → P { s with host := h }
  phase : ∀ (s : State) (p : Phase), P s → P { s with phase := p }
  pending : ∀ (s : State) (l : List Instr), P s → P { s with pending := l }
  draws : ∀ (s : State) (n : Nat), P s → P { s with draws := n }
  lease : ∀ (s : State) (k : Client), P s → P (reloadLease k s)
  offer : ∀ (s : State) (o : Offer), P s → P (deliverOne s o)

/-- What command `i` has to keep for `P` to be kept by it: the rule of a request, or what an event
does where it acts. The ports' own events reach no table but the leases. -/
def CommandKeeps (P : State → Prop) : Instr → Prop
  | .housekeepingTick held0 held1 => ∀ s, P s → P (tick held0 held1 s)
  | .leaseLapse k => ∀ s, P s → P (tickLease (begin s) k).st
  | .lineAdvance => ∀ s, P s → P (advanceLine s)
  | .windowOpen => ∀ s, s.gen.openDue = true → P s → P (handWindowOpen s)
  | .windowClose => ∀ s, s.gen.closeDue = true → P s → P (handWindowClose s)
  | .epochEnd => ∀ s, s.gen.run.inEpoch = true → P s → P (endEpoch s).st
  | .trigger _ _ => ∀ s, P s → P (takeTrigger s).st
  | .transferStart b dataLow => ∀ s, s.mayStart b = true → P s → P (startTransfer b dataLow s)
  | .attemptNack b nack => ∀ s t, (s.engine b).attempting = some t → P s →
      P (retryOrFail b { t with made := t.made + 1 } nack.dataLow
        (begin (putOnWires b (nackedWire nack.byte t.wire) s))).st
  | .transferEnd b read0 read1 read2 read3 => ∀ s t, (s.engine b).attempting = some t → P s →
      P (endTransfer b true [read0, read1, read2, read3] .idle (begin (putOnWires b t.wire s))).st
  | .stretchLimitExceeded stretch => ∀ s, (s.engine stretch.bus).limitExceeded = true → P s →
      P (exceedStretch stretch.bus stretch.passed s).st
  | .recoveryEnd b lowLooks dataHigh clockHigh dataLowAtStart => ∀ s,
      (s.engine b).state = .recovery → P s →
      P (endRecovery b lowLooks (dataHigh && clockHigh) dataLowAtStart s).st
  | .stretchEnd b => ∀ s, P s → P (s.setEngine b { s.engine b with stretching := false })
  | .pinReset _ => P State.reset
  | .pollNone .. | .messageTaken .. | .messageRefused .. | .readTransaction ..
  | .framingDetection .. | .resetRelease | .startupEnd .. | .twoWireCodeByte ..
  | .fourWireFrameStart .. => True
  | i => ∀ s, P s → P (ruleOf i s).1.st

theorem commandKeeps_request {P : State → Prop} {i : Instr} {k : Client}
    (h : requestClient i = some k) : CommandKeeps P i ↔ ∀ s, P s → P (ruleOf i s).1.st := by
  cases i <;> cases h <;> rfl

theorem ite_keeps {P : State → Prop} {c : Prop} [Decidable c] {t u : State} (ht : c → P t)
    (hu : P u) : P (if c then t else u) := by
  split
  · exact ht ‹_›
  · exact hu

theorem ite_keeps_right {P : State → Prop} {c : Prop} [Decidable c] {t u : State} (ht : P t)
    (hu : P u) : P (if c then t else u) := ite_keeps (fun _ => ht) hu

/-- `f` is looked at in the state it acts on, out of reset and start-up. -/
theorem whenOperating_keeps {P : State → Prop} {f : State → State} {s : State} (hs : P s)
    (hf : P (f s)) : P (whenOperating s f) := ite_keeps (fun _ => hf) hs

/-- The events that act on the tables, in contrast to those at the ports' pins and at RESET_N. -/
def isTableEvent : Instr → Bool
  | .housekeepingTick .. | .leaseLapse .. | .lineAdvance | .windowOpen | .windowClose | .epochEnd
  | .trigger .. | .transferStart .. | .attemptNack .. | .transferEnd .. | .stretchLimitExceeded ..
  | .recoveryEnd .. | .stretchEnd .. => true
  | _ => false

/-- A law that an offered record cannot break is kept by an event of the tables that keeps it. -/
theorem exec_tableEvent_keeps {P : State → Prop} {i : Instr} {s t : State}
    (htable : isTableEvent i = true) (hoffer : ∀ s o, P s → P (deliverOne s o))
    (hi : CommandKeeps P i) (hs : P s) (h : exec i s = .next t) : P t := by
  have hfinish : ∀ w : Work, P w.st → P w.finish := fun w => deliver_keeps P hoffer w.st w.out
  cases i with
  | housekeepingTick held0 held1 => cases h; exact whenOperating_keeps hs (hi s hs)
  | leaseLapse k =>
    cases h; exact whenOperating_keeps hs (ite_keeps (fun _ => hfinish _ (hi _ hs)) hs)
  | lineAdvance => cases h; exact whenOperating_keeps hs (hi s hs)
  | windowOpen => cases h; exact whenOperating_keeps hs (ite_keeps (fun hdue => hi _ hdue hs) hs)
  | windowClose => cases h; exact whenOperating_keeps hs (ite_keeps (fun hdue => hi _ hdue hs) hs)
  | epochEnd =>
    cases h
    exact whenOperating_keeps hs (ite_keeps
      (fun hdue => hfinish _ (hi _ (Bool.and_eq_true_iff.mp hdue).1 hs)) hs)
  | trigger edge heldFor =>
    cases h; exact whenOperating_keeps hs (ite_keeps (fun _ => hfinish _ (hi _ hs)) hs)
  | transferStart b dataLow =>
    cases h; exact whenOperating_keeps hs (ite_keeps (fun hmay => hi _ hmay hs) hs)
  | attemptNack b nack =>
    cases h
    refine whenOperating_keeps hs ?_
    split
    · exact hs
    · exact hfinish _ (hi _ _ ‹_› hs)
  | transferEnd b read0 read1 read2 read3 =>
    cases h
    refine whenOperating_keeps hs ?_
    split
    · exact hs
    · exact hfinish _ (hi _ _ ‹_› hs)
  | stretchLimitExceeded stretch =>
    cases h
    exact whenOperating_keeps hs (ite_keeps (fun hlimit => hfinish _ (hi _ hlimit hs)) hs)
  | recoveryEnd b lowLooks dataHigh clockHigh dataLowAtStart =>
    cases h
    exact whenOperating_keeps hs (ite_keeps (fun hdue => hfinish _ (hi _ hdue.1 hs)) hs)
  | stretchEnd b => cases h; exact whenOperating_keeps hs (ite_keeps_right hs (hi _ hs))
  | _ => cases htable

section
variable {P : State → Prop} (L : TableLaw P)
include L

theorem TableLaw.setPort (s : State) (k : Client) (p : Port) (hs : P s) : P (s.setPort k p) :=
  L.host s _ hs

theorem TableLaw.grantNext (s : State) (hs : P s) : P (grantNext s) := by
  obtain h | ⟨k, -, -, h⟩ := grantNext_cases s
  · rwa [h]
  · rw [h]; exact L.host s _ hs

theorem TableLaw.deliver (s : State) (out : List Offer) (hs : P s) : P (deliver s out) :=
  deliver_keeps P L.offer s out hs

theorem TableLaw.finish (w : Work) (hs : P w.st) : P w.finish := L.deliver w.st w.out hs

theorem TableLaw.messageEnds (k : Client) (via : Carrier) (bytes : List Byte) (later : Bool)
    (s : State) (hs : P s) : P (messageEnds k via bytes later s) :=
  messageEnds_keeps L.setPort L.lease L.grantNext hs

/-- A table law that a request's rule or an event's effect keeps is kept by the command. -/
theorem exec_keeps {i : Instr} {s t : State} (hi : CommandKeeps P i) (hs : P s)
    (h : exec i s = .next t) : P t := by
  cases i with
  | pollNone k clocks =>
    cases h
    exact whenOperating_keeps hs (ite_keeps (fun _ => L.lease _ _ (L.setPort _ _ _ hs)) hs)
  | messageTaken k arrival bytes =>
    cases h; exact whenOperating_keeps hs (L.messageEnds _ _ _ _ _ hs)
  | messageRefused k via bytes =>
    cases h; exact whenOperating_keeps hs (L.messageEnds _ _ _ _ _ hs)
  | readTransaction k address count =>
    cases h; exact whenOperating_keeps hs (ite_keeps (fun _ => L.setPort _ _ _ hs) hs)
  | framingDetection k condition =>
    cases h; exact whenOperating_keeps hs (L.setPort _ _ _ hs)
  | pinReset cause =>
    have hheld : ∀ u : State, P (heldInReset u) := fun u =>
      L.pending _ _ (L.draws _ _ (L.phase State.reset .held hi))
    cases cause with
    | resetLow => cases h; exact hheld _
    | powerUp => cases h; exact hheld _
    | supplyFall => cases h; exact hheld _
    | shortPulse => cases h; exact ite_keeps (fun _ => hheld _) (L.draws s _ hs)
  | resetRelease => cases h; exact ite_keeps (fun _ => L.phase _ _ hs) hs
  | startupEnd pins0 pins1 pins2 pins3 =>
    cases h
    exact ite_keeps (fun _ => L.setPort _ _ _ (L.setPort _ _ _ (L.setPort _ _ _
      (L.setPort _ _ _ (L.phase _ _ hs))))) hs
  | twoWireCodeByte k address =>
    cases h; exact whenOperating_keeps hs (ite_keeps (fun _ => L.setPort _ _ _ hs) hs)
  | fourWireFrameStart k =>
    cases h; exact whenOperating_keeps hs (ite_keeps (fun _ => L.setPort _ _ _ hs) hs)
  | housekeepingTick | leaseLapse | lineAdvance | windowOpen | windowClose | epochEnd | trigger
  | transferStart | attemptNack | transferEnd | stretchLimitExceeded | recoveryEnd | stretchEnd =>
    exact exec_tableEvent_keeps rfl L.offer hi hs h
  | _ =>
    cases h
    exact request_keeps L.setPort L.lease (fun s _ _ => L.host s _) L.offer hi hs

/-- A table law that every command keeps is kept by every step. -/
theorem keptByEveryStep (h : ∀ i, CommandKeeps P i) : KeptByEveryStep P :=
  keptByEveryStep_of_exec (fun s l => L.pending s l) (fun i _ _ hs => exec_keeps L (h i) hs)

end

/-- The law that a part of the state is what it was. -/
theorem tableLaw_part {β : Type} {part : State → β} (c : β)
    (hhost : ∀ (s : State) (h : HostSide), part { s with host := h } = part s)
    (hphase : ∀ (s : State) (p : Phase), part { s with phase := p } = part s)
    (hpending : ∀ (s : State) (l : List Instr), part { s with pending := l } = part s)
    (hdraws : ∀ (s : State) (n : Nat), part { s with draws := n } = part s)
    (hlease : ∀ (s : State) (k : Client), part (reloadLease k s) = part s)
    (hoffer : ∀ (s : State) (o : Offer), part (deliverOne s o) = part s) :
    TableLaw (fun s => part s = c) where
  host s h hs := (hhost s h).trans hs
  phase s p hs := (hphase s p).trans hs
  pending s l hs := (hpending s l).trans hs
  draws s n hs := (hdraws s n).trans hs
  lease s k hs := (hlease s k).trans hs
  offer s o hs := (hoffer s o).trans hs

end Sys2Proof.Commands
end


section
/-! PROOFS. What each request's rule can do to the tables: nothing, or its one effect, with what its
checks then say. -/

set_option Elab.async false

namespace Sys2Proof.Rules

open Sys2Proof Sys2Proof.Machine

/-- A rule leaves the tables alone and offers nothing: a refusal, or an answer that reports. -/
abbrev Reports (r : Work × Reply) (s : State) : Prop := r.1 = begin s

section
variable (k : Client) (s : State)

/-! ### Slot Table -/

theorem serveDefineSlot_cases (slot device : Byte) (register : Half) (format kind : Byte)
    (min max initial : Value) :
    Reports (serveDefineSlot k slot device register format kind min max initial s) s ∨
      ∃ d : Descriptor, isLocal (slotNo slot) = false ∧ s.gen.run = .stopped ∧
        s.busy (slotNo slot) = false ∧
        descriptorOf device format kind min max initial = some d ∧
        (s.device d.device).isPresent = true ∧ registerFits (s.device d.device) register = true ∧
        (serveDefineSlot k slot device register format kind min max initial s).1 =
          begin (s.setSlot (slotNo slot) (definedSlot d register min max initial)) := by
  unfold serveDefineSlot
  dsimp only
  split_ifs with hlocal hrun hheld hbusy
  all_goals try exact .inl rfl
  split
  · exact .inl rfl
  · rename_i d hd
    split_ifs with hpresent hfits
    all_goals try exact .inl rfl
    exact .inr ⟨d, by simpa using hlocal, by simpa using hrun, by simpa using hbusy, hd,
      by simpa using hpresent, by simpa using hfits, rfl⟩

theorem serveUndefineSlot_cases (slot : Byte) :
    Reports (serveUndefineSlot k slot s) s ∨
      isLocal (slotNo slot) = false ∧ s.gen.run = .stopped ∧
        s.pendingCount (slotNo slot) = 0 ∧ s.queuedCount (slotNo slot) = 0 ∧
        (serveUndefineSlot k slot s).1 =
          begin ((s.setSlot (slotNo slot) Slot.undefined).setOwner (slotNo slot) none) := by
  unfold serveUndefineSlot
  dsimp only
  split_ifs with hlocal hrun hdefined hheld hbusy
  all_goals try exact .inl rfl
  rw [not_or, not_not, not_not] at hbusy
  exact .inr ⟨by simpa using hlocal, by simpa using hrun, hbusy.1, hbusy.2, rfl⟩

theorem serveWriteNow_cases (tag slot : Byte) (value : Value) :
    Reports (serveWriteNow k tag slot value s) s ∨
      ∃ (d : DeviceNo) (b : BusNo), (s.slot (slotNo slot)).defined = true ∧
        (s.slot (slotNo slot)).cls ≠ .epoch ∧ s.admissible (slotNo slot) value = true ∧
        (s.slot (slotNo slot)).device = some d ∧ b = (s.device d).bus ∧
        (serveWriteNow k tag slot value s).1 = (supersede b (slotNo slot) (begin s)).update
          (append b (slotEntry .now (slotNo slot) (s.slot (slotNo slot)) d value
            (.client k tag))) := by
  unfold serveWriteNow
  dsimp only
  split_ifs with hdefined hcls hstandby hadm hheld
  all_goals try exact .inl rfl
  split
  · exact .inl rfl
  · rename_i d hd
    split_ifs
    · exact .inl rfl
    · exact .inr ⟨d, _, by simpa using hdefined, hcls, by simpa using hadm, hd, rfl, rfl⟩

/-! ### Claim Table -/

theorem serveClaim_cases (first count : Byte) :
    Reports (serveClaim k first count s) s ∨
      (∀ i ∈ slotRange first.toNat count.toNat, (s.slot i).defined = true) ∧
        (serveClaim k first count s).1 = begin ((slotRange first.toNat count.toNat).foldl
          (fun s i => s.setOwner i (some k)) s) := by
  unfold serveClaim
  dsimp only
  split_ifs
  · exact .inl rfl
  · split
    · exact .inl rfl
    · rename_i hdefined
      split
      · exact .inl rfl
      · exact .inr ⟨by simpa using hdefined, rfl⟩

theorem serveRelease_cases (first count : Byte) :
    Reports (serveRelease k first count s) s ∨ (serveRelease k first count s).1 =
      begin (releaseSlots k (slotRange first.toNat count.toNat) s) := by
  unfold serveRelease
  dsimp only
  split_ifs
  · exact .inl rfl
  · exact .inr rfl

theorem serveClaimSchedule_cases :
    Reports (serveClaimSchedule k s) s ∨ (serveClaimSchedule k s).1 = begin (s.setToken (some k)) := by
  unfold serveClaimSchedule
  split
  · exact .inr rfl
  · split_ifs <;> exact .inl rfl

theorem serveReleaseSchedule_cases :
    Reports (serveReleaseSchedule k s) s ∨
      (serveReleaseSchedule k s).1 = begin (s.setToken none) := by
  unfold serveReleaseSchedule
  split_ifs
  · exact .inr rfl
  · exact .inl rfl

theorem serveRevoke_cases (named : Byte) :
    Reports (serveRevoke k named s) s ∨ ∃ j : Client, (serveRevoke k named s).1 =
      offerTo j (.claimsRevoked k (s.ownedCount j)) (begin (releaseAll j s)) := by
  unfold serveRevoke
  split
  · exact .inl rfl
  · split_ifs
    · exact .inl rfl
    · exact .inr ⟨_, rfl⟩

theorem serveSetLease_cases (setting : Half) :
    Reports (serveSetLease k setting s) s ∨ settingOk setting.toNat = true ∧
      (serveSetLease k setting s).1 =
        begin (s.setLease k { setting := setting.toNat, counter := setting.toNat }) := by
  unfold serveSetLease
  split_ifs with h
  · exact .inl rfl
  · exact .inr ⟨by simpa using h, rfl⟩

/-! ### Batch Contexts -/

theorem serveOpen_cases (target policy : Byte) (epoch : Half) :
    Reports (serveOpen k target policy epoch s) s ∨
      ∃ (n : Fin 4) (kind : TargetKind) (pol : Policy), s.openContext k = none ∧
        s.findContext k (fun b => b.state == .free) = some n ∧
        (serveOpen k target policy epoch s).1 = begin ((s.setContext k n
          { Batch.empty with state := .opened, id := s.freshId k 3 (s.previousId k), kind := kind,
                             epoch := epoch, policy := pol }).setPreviousId k
            (s.freshId k 3 (s.previousId k))) := by
  unfold serveOpen
  split
  · exact .inl rfl
  · split
    · exact .inl rfl
    · split
      · exact .inr ⟨_, _, _, ‹_›, ‹_›, rfl⟩
      · exact .inl rfl

theorem serveStage_cases (slot : Byte) (value : Value) :
    Reports (serveStage k slot value s) s ∨
      ∃ (n : Fin 4) (b : Batch), s.openContext k = some n ∧
        ((∃ v, stageOne s k (s.context k n) (slotNo slot) value = .replaced v b) ∨
          stageOne s k (s.context k n) (slotNo slot) value = .appended b) ∧
        (serveStage k slot value s).1 = begin (s.setContext k n b) := by
  unfold serveStage
  split
  · exact .inl rfl
  · dsimp only
    split
    · exact .inl rfl
    · exact .inr ⟨_, _, ‹_›, .inl ⟨_, ‹_›⟩, rfl⟩
    · exact .inr ⟨_, _, ‹_›, .inr ‹_›, rfl⟩

theorem serveStageRun_cases (first count : Byte) (values : List Value) :
    Reports (serveStageRun k first count values s) s ∨
      ∃ (n : Fin 4), s.openContext k = some n ∧
        (serveStageRun k first count values s).1 = begin (s.setContext k n
          (stageRunOver s k ((slotRange first.toNat count.toNat).zip values)
            { batch := s.context k n, accepted := 0, replaced := 0, stop := .ok,
              stopSlot := slotNo first }).batch) := by
  unfold serveStageRun
  split_ifs
  · exact .inl rfl
  · split
    · exact .inl rfl
    · exact .inr ⟨_, ‹_›, rfl⟩

theorem serveUnstage_cases (slot : Byte) :
    Reports (serveUnstage k slot s) s ∨
      ∃ (n : Fin 4), s.openContext k = some n ∧
        (serveUnstage k slot s).1 = begin (s.setContext k n ((s.context k n).withRecords
          ((s.context k n).records.filter (fun r => r.slot != slotNo slot)))) := by
  unfold serveUnstage
  split
  · exact .inl rfl
  · dsimp only
    split
    · exact .inl rfl
    · exact .inr ⟨_, ‹_›, rfl⟩

theorem serveAbort_cases :
    Reports (serveAbort k s) s ∨ ∃ (n : Fin 4), s.openContext k = some n ∧
      (serveAbort k s).1 = begin (s.setContext k n Batch.empty) := by
  unfold serveAbort
  split
  · exact .inl rfl
  · exact .inr ⟨_, ‹_›, rfl⟩

theorem serveSeal_cases :
    Reports (serveSeal k s) s ∨
      ∃ (n : Fin 4) (b : Batch) (t : Epoch) (slipped : Bool), s.openContext k = some n ∧
        b = s.context k n ∧ b.records ≠ [] ∧
        (∀ x ∈ b.records, (s.slot x.slot).defined = true) ∧
        (∀ x ∈ b.records, ∀ y ∈ s.store, y.slot = x.slot → y.target ≠ t) ∧
        s.store.length + b.records.length ≤ 192 ∧
        (serveSeal k s).1 = begin (sealTaken k n t slipped s) := by
  unfold serveSeal
  split
  · exact .inl rfl
  rename_i n hn
  dsimp only
  split
  · exact .inl rfl
  rename_i hempty
  split
  · exact .inl rfl
  rename_i hdefined
  split
  · exact .inl rfl
  split
  · exact .inl rfl
  · exact .inl rfl
  rename_i t slipped _
  split
  · exact .inl rfl
  rename_i hconflict
  split
  · exact .inl rfl
  rename_i hfull
  refine .inr ⟨n, _, t, slipped, hn, rfl, hempty, by simpa using hdefined, ?_,
    Nat.le_of_not_lt hfull, rfl⟩
  intro x hx y hy hslot htarget
  rw [List.find?_eq_none] at hconflict
  exact hconflict x hx (List.any_eq_true.mpr ⟨y, hy, by simp [hslot, htarget]⟩)

theorem serveCancel_cases (id : Byte) :
    Reports (serveCancel k id s) s ∨
      ∃ n : Fin 4, s.sealedContext { client := k, id := id.toNat } = some n ∧
        (serveCancel k id s).1 = begin (((s.setStore (s.store.filter
          (fun x => x.batch != { client := k, id := id.toNat }))).setContext k n
            Batch.empty).setSealList
            (s.batches.sealList.filter (· != { client := k, id := id.toNat }))) := by
  unfold serveCancel
  dsimp only
  split
  · exact .inl rfl
  · split_ifs
    · exact .inl rfl
    · exact .inr ⟨_, ‹_›, rfl⟩

theorem serveReadBatch_reports (id : Byte) : Reports (serveReadBatch k id s) s := by
  unfold serveReadBatch
  split <;> rfl

/-! ### Epoch Generator and Timing Outputs -/

theorem serveSetGeometry_cases (lspan vspan wopen wclose : Half) (edge : Byte) :
    Reports (serveSetGeometry lspan vspan wopen wclose edge s) s ∨
      ∃ e : Edge, s.gen.run = .stopped ∧
        geometryOk lspan.toNat vspan.toNat wopen.toNat wclose.toNat = true ∧
        (serveSetGeometry lspan vspan wopen wclose edge s).1 = begin (s.setGen { s.gen with
          lspan := lspan.toNat, vspan := vspan.toNat, wopen := wopen.toNat,
          wclose := wclose.toNat, edge := e }) := by
  unfold serveSetGeometry
  split
  · exact .inl rfl
  rename_i hrun
  split
  · exact .inl rfl
  split
  · exact .inl rfl
  rename_i hok
  exact .inr ⟨_, by simpa using hrun, by simpa using hok, rfl⟩

/-- START with its four writes of the generator, before the records go stale. -/
def startRequested (m : Mode) (epoch : Epoch) : State :=
  s.setGen { s.gen with mode := m, startEpoch := epoch, issuer := some k }

theorem serveStart_cases (mode : Byte) (epoch : Half) :
    Reports (serveStart k mode epoch s) s ∨
      ∃ (m : Mode) (w : Work), s.gen.run = .stopped ∧ modeOf mode = some m ∧
        w = (dropStale epoch (begin (startRequested k s m epoch))).update beginPriming ∧
        (w.st.gen.primesOutstanding = 0 ∧ (serveStart k mode epoch s).1 = endPriming w ∨
          w.st.gen.primesOutstanding ≠ 0 ∧ (serveStart k mode epoch s).1 = w) := by
  unfold serveStart
  split_ifs with hrun
  · exact .inl rfl
  · split
    · exact .inl rfl
    · refine .inr ⟨_, _, by simpa using hrun, ‹_›, rfl, ?_⟩
      dsimp only
      split_ifs with hnone
      · exact .inl ⟨hnone, rfl⟩
      · exact .inr ⟨hnone, rfl⟩

theorem serveStop_cases (option : Byte) :
    Reports (serveStop k option s) s ∨
      ∃ o : StopOption, s.gen.run ≠ .stopped ∧ (serveStop k option s).1.st = stopSchedule k o s := by
  unfold serveStop
  split_ifs with hrun
  · exact .inl rfl
  · split
    · exact .inl rfl
    · rename_i o _
      exact .inr ⟨o, hrun, by simp⟩

/-- The state that RESET_SCHEDULE leaves, before its records reach the queues. -/
theorem serveResetSchedule_st :
    (serveResetSchedule k s).1.st = (resetBatchesAndStore
      (begin (resetQueueEntries (setIssuer none (enterStopped s))).draw)).st.draw.draw := by
  simp [serveResetSchedule]

/-! ### Dispatch Queues, device table and buses -/

theorem serveReadDevice_cases (tag device : Byte) (register : Half) (width order : Byte) :
    Reports (serveReadDevice k tag device register width order s) s ∨
      ∃ (d : DeviceNo) (o : ByteOrder), (s.device d).isPresent = true ∧
        (serveReadDevice k tag device register width order s).1 =
          begin ((append (s.device d).bus (probeEntry k tag d register width.toNat o) s).setProbes k
            (s.probes k + 1)) := by
  unfold serveReadDevice
  split
  · dsimp only
    split_ifs with hpresent
    all_goals try exact .inl rfl
    exact .inr ⟨_, _, by simpa using hpresent, rfl⟩
  · exact .inl rfl

theorem serveReadQueue_cases (bus : Byte) :
    Reports (serveReadQueue bus s) s ∨ (serveReadQueue bus s).1 = begin s.draw := by
  unfold serveReadQueue
  split
  · exact .inl rfl
  · dsimp only
    split
    · exact .inr rfl
    · exact .inl rfl

theorem serveDefineDevice_cases (device state bus address size retries : Byte) :
    Reports (serveDefineDevice device state bus address size retries s) s ∨
      ∃ (d : DeviceNo) (r : Device), s.gen.run = .stopped ∧
        deviceOf state bus address size retries = some r ∧
        (s.inUse d = false ∨ changesIdentity (s.device d) r = false) ∧
        (r.isPresent = false ∨ s.addressTaken d r = false) ∧
        (serveDefineDevice device state bus address size retries s).1 =
          begin (s.setDevice d r) := by
  unfold serveDefineDevice
  split_ifs with hrun
  · exact .inl rfl
  · split
    · split_ifs with huse htaken
      · exact .inl rfl
      · exact .inl rfl
      · exact .inr ⟨_, _, by simpa using hrun, ‹_›,
          by simpa [← Bool.not_eq_true, ← not_and_or] using huse,
          by simpa [← Bool.not_eq_true, ← not_and_or] using htaken, rfl⟩
    · exact .inl rfl

theorem serveBusConfig_cases (bus speed : Byte) :
    Reports (serveBusConfig bus speed s) s ∨ ∃ (b : BusNo) (v : Speed),
      (serveBusConfig bus speed s).1 =
        begin (s.setEngine b { s.engine b with speed := v }) := by
  unfold serveBusConfig
  split_ifs
  · exact .inl rfl
  · split
    · exact .inr ⟨_, _, rfl⟩
    · exact .inl rfl

theorem serveBusRecover_cases (bus : Byte) :
    Reports (serveBusRecover k bus s) s ∨ ∃ b : BusNo, (s.engine b).state = .fault ∧
      (serveBusRecover k bus s).1 = begin (s.setEngine b { s.engine b with
        state := .recovery, requester := some k, clock := (s.engine b).speed, xfer := none,
        stretching := false, stretchCount := 0, pulses := 0, sent := [] }) := by
  unfold serveBusRecover
  split
  · exact .inl rfl
  · split_ifs with hfault
    · exact .inl rfl
    · exact .inr ⟨_, by simpa using hfault, rfl⟩

theorem serveReadBus_reports (bus : Byte) : Reports (serveReadBus bus s) s := by
  unfold serveReadBus
  split <;> rfl

/-! ### Event Queues -/

theorem serveFetch_cases (count : Byte) :
    Reports (serveFetch k count s) s ∨ (count = 0x01 ∨ count = 0x02) ∧ (serveFetch k count s).1 =
      begin (s.setEventQueue k ((s.eventQueue k).fetch count.toNat s.gen.c)) := by
  unfold serveFetch
  split_ifs with h
  · exact .inl rfl
  · exact .inr ⟨by tauto, rfl⟩

theorem serveSubscribe_cases (set divider : Byte) :
    Reports (serveSubscribe k set divider s) s ∨ subscriptionOk set divider = true ∧
      (serveSubscribe k set divider s).1 =
        begin (s.setEventQueue k ((s.eventQueue k).subscribe set divider)) := by
  unfold serveSubscribe
  dsimp only
  split_ifs with h
  · exact .inl rfl
  · exact .inr ⟨by simpa using h, rfl⟩

end

end Sys2Proof.Rules
end


section
/-! PROOFS. The effects of the requests in one place: every constructor is what one rule, or one kind
of rule, can make of the tables once its checks have passed. -/

set_option Elab.async false

namespace Sys2Proof.Effects

open Sys2Proof Sys2Proof.Machine Sys2Proof.Commands Sys2Proof.Rules

/-! ### Owners (R22, R23, R27, R31) -/

/-- `s` with other owner entries. -/
def withOwners (s : State) (o : Vector (Option Client) 256) : State :=
  { s with claims := { s.claims with owner := o } }

theorem releaseSlots_cons (k : Client) (a : SlotNo) (slots : List SlotNo) (s : State) :
    releaseSlots k (a :: slots) s =
      releaseSlots k slots (if s.owner a = some k then s.setOwner a none else s) := rfl

theorem releaseSlots_owner (k : Client) (slots : List SlotNo) (s : State) (i : SlotNo) :
    (releaseSlots k slots s).owner i =
      if i ∈ slots ∧ s.owner i = some k then none else s.owner i := by
  induction slots generalizing s with
  | nil => simp [releaseSlots]
  | cons a slots ih =>
    rw [releaseSlots_cons, ih]
    by_cases ha : s.owner a = some k
    · rw [if_pos ha, State.setOwner_owner]
      by_cases hai : a = i
      · subst hai; simp [ha]
      · simp [hai, Ne.symm hai]
    · rw [if_neg ha]
      by_cases hai : a = i
      · subst hai; simp [ha]
      · simp [Ne.symm hai]

/-- Releasing claims changes the owner entries and nothing else. -/
theorem releaseSlots_frame (k : Client) (slots : List SlotNo) (s : State) :
    releaseSlots k slots s = withOwners s (releaseSlots k slots s).claims.owner := by
  induction slots generalizing s with
  | nil => rfl
  | cons a slots ih =>
    rw [releaseSlots_cons]
    split
    · exact ih (s.setOwner a none)
    · exact ih s

theorem releaseAll_owner (k : Client) (s : State) (i : SlotNo) :
    (releaseAll k s).owner i = if s.owner i = some k then none else s.owner i :=
  Vector.getElem_map ..

theorem releaseAll_frame (k : Client) (s : State) :
    releaseAll k s = withOwners s (releaseAll k s).claims.owner := rfl

/-- No slot has an owner in `t` that it did not have in `s`. -/
abbrev OnlyReleases (s : State) (o : Vector (Option Client) 256) : Prop :=
  ∀ i : SlotNo, o[i.val] = none ∨ o[i.val] = s.owner i

/-! ### Staging (R40 to R43) -/

/-- R4, R40: a value may be staged for the slot as the table stands. -/
def Stageable (s : State) (x : Staged) : Prop :=
  (s.slot x.slot).defined = true ∧ (s.slot x.slot).cls = .epoch ∧
    s.admissible x.slot x.value = true

/-- R38, R41 to R43: batch `b'` is `b` with its list of records staged, replaced or unstaged. -/
structure StagedFrom (s : State) (b b' : Batch) : Prop where
  batch : b' = b ∨ b' = b.withRecords b'.records
  length : b.records.length ≤ 32 → b'.records.length ≤ 32
  nodup : (b.records.map (·.slot)).Nodup → (b'.records.map (·.slot)).Nodup
  records : ∀ x ∈ b'.records, x ∈ b.records ∨ Stageable s x

theorem StagedFrom.refl (s : State) (b : Batch) : StagedFrom s b b :=
  ⟨.inl rfl, id, id, fun _ => .inl⟩

theorem StagedFrom.trans {s : State} {a b c : Batch} (hab : StagedFrom s a b)
    (hbc : StagedFrom s b c) : StagedFrom s a c where
  batch := by
    rcases hbc.batch with rfl | hc
    · exact hab.batch
    · refine .inr (hc.trans ?_)
      rcases hab.batch with rfl | hb
      · rfl
      · rw [hb]; rfl
  length h := hbc.length (hab.length h)
  nodup h := hbc.nodup (hab.nodup h)
  records x hx := (hbc.records x hx).elim (hab.records x) .inr

/-- R40: what the checks of STAGE leave to say of the slot. -/
theorem stageRefusal_eq_none {s : State} {k : Client} {i : SlotNo} {v : Value}
    (h : s.stageRefusal k i v = none) : (s.slot i).defined = true ∧ (s.slot i).cls = .epoch ∧
      s.admissible i v = true ∧ s.heldByOther k i = false := by
  unfold State.stageRefusal at h
  split_ifs at h with hd hc ha ho
  exact ⟨by simpa using hd, by simpa using hc, by simpa using ha, by simpa using ho⟩

theorem map_slot_replace (records : List Staged) (i : SlotNo) (v : Value) :
    (records.map (fun r => if r.slot == i then { r with value := v } else r)).map (·.slot) =
      records.map (·.slot) := by
  rw [List.map_map]
  refine List.map_congr_left fun r _ => ?_
  simp only [Function.comp_apply]
  split <;> rfl

theorem stagedFrom_replace {s : State} {b : Batch} {i : SlotNo} {v : Value}
    (h : Stageable s { slot := i, value := v, lead := 0 }) :
    StagedFrom s b (b.withRecords (b.records.map (fun r =>
      if r.slot == i then { r with value := v } else r))) where
  batch := .inr rfl
  length hl := by simpa [Batch.withRecords] using hl
  nodup hn := by simpa only [Batch.withRecords, map_slot_replace] using hn
  records x hx := by
    obtain ⟨r, hr, rfl⟩ := List.mem_map.mp hx
    by_cases hi : r.slot = i
    · subst hi; rw [if_pos (beq_self_eq_true _)]; exact .inr h
    · rw [if_neg (by simpa using hi)]; exact .inl hr

theorem stagedFrom_append {s : State} {b : Batch} {x : Staged} (h : Stageable s x)
    (hnew : ∀ r ∈ b.records, r.slot ≠ x.slot) (hroom : b.records.length < 32) :
    StagedFrom s b (b.withRecords (b.records ++ [x])) where
  batch := .inr rfl
  length _ := by simp [Batch.withRecords]; omega
  nodup hn := by
    simp only [Batch.withRecords, List.map_append, List.map_cons, List.map_nil]
    refine hn.append (List.nodup_singleton _) ?_
    simpa [List.disjoint_singleton] using hnew
  records y hy := by
    rcases List.mem_append.mp hy with hy | hy
    · exact .inl hy
    · rw [List.mem_singleton.mp hy]; exact .inr h

/-- R40, R41: staging one value. -/
theorem stagedFrom_stageOne {s : State} {k : Client} {b b' : Batch} {i : SlotNo} {v : Value}
    (h : (∃ old, stageOne s k b i v = .replaced old b') ∨ stageOne s k b i v = .appended b') :
    StagedFrom s b b' := by
  unfold stageOne at h
  split at h
  · rcases h with ⟨_, h⟩ | h <;> cases h
  rename_i hcheck
  obtain ⟨hd, hc, ha, -⟩ := stageRefusal_eq_none hcheck
  unfold stageInto at h
  split at h
  · rcases h with ⟨_, h⟩ | h <;> cases h
    exact stagedFrom_replace ⟨hd, hc, ha⟩
  · rename_i hnone
    split at h
    · rcases h with ⟨_, h⟩ | h <;> cases h
      exact stagedFrom_append ⟨hd, hc, ha⟩ (by simpa using hnone) ‹_›
    · rcases h with ⟨_, h⟩ | h <;> cases h

theorem stagedFrom_stageRunOver (s : State) (k : Client) (l : List (SlotNo × Value))
    (p : RunProgress) : StagedFrom s p.batch (stageRunOver s k l p).batch := by
  induction l generalizing p with
  | nil => exact .refl _ _
  | cons x l ih =>
    obtain ⟨i, v⟩ := x
    unfold stageRunOver
    split
    · exact .refl _ _
    · exact (stagedFrom_stageOne (.inl ⟨_, ‹_›⟩)).trans (ih _)
    · exact (stagedFrom_stageOne (.inr ‹_›)).trans (ih _)

theorem stagedFrom_unstage (s : State) (b : Batch) (i : SlotNo) :
    StagedFrom s b (b.withRecords (b.records.filter (fun r => r.slot != i))) where
  batch := .inr rfl
  length h := (List.length_filter_le _ _).trans h
  nodup h := h.sublist (List.filter_sublist.map _)
  records _ hx := .inl (List.mem_of_mem_filter hx)

/-! ### The effects -/

/-- What the rule of a request can make of the tables. The constructors without a request of their own
say of several requests what they have in common. -/
inductive Effect (s : State) : Instr → State → Prop
  | reports (i : Instr) : Effect s i s
  | draws (i : Instr) : Effect s i s.draw
  | defineSlot {k : Client} {tag slot device : Byte} {register : Half} {format kind : Byte}
      {min max initial : Value} {d : Descriptor} :
      isLocal (slotNo slot) = false → s.gen.run = .stopped → s.busy (slotNo slot) = false →
      descriptorOf device format kind min max initial = some d →
      (s.device d.device).isPresent = true → registerFits (s.device d.device) register = true →
      Effect s (.defineSlot k tag slot device register format kind min max initial)
        (s.setSlot (slotNo slot) (definedSlot d register min max initial))
  | undefineSlot {k : Client} {tag slot : Byte} :
      isLocal (slotNo slot) = false → s.gen.run = .stopped →
      s.pendingCount (slotNo slot) = 0 → s.queuedCount (slotNo slot) = 0 →
      Effect s (.undefineSlot k tag slot)
        ((s.setSlot (slotNo slot) Slot.undefined).setOwner (slotNo slot) none)
  | writeNow {k : Client} {tag slot : Byte} {value : Value} {d : DeviceNo} {b : BusNo} {r : Slot} :
      r = s.slot (slotNo slot) → r.defined = true → r.cls ≠ .epoch →
      s.admissible (slotNo slot) value = true → r.device = some d → b = (s.device d).bus →
      Effect s (.writeNow k tag slot value)
        (append b (slotEntry .now (slotNo slot) r d value (.client k tag))
          (supersede b (slotNo slot) (begin s)).st)
  | claim {k : Client} {tag first count : Byte} {o : Vector (Option Client) 256} :
      (∀ i : SlotNo, o[i.val] = s.owner i ∨ (s.slot i).defined = true) →
      Effect s (.claim k tag first count) (withOwners s o)
  | release {k : Client} {tag first count : Byte} {o : Vector (Option Client) 256} :
      OnlyReleases s o → Effect s (.release k tag first count) (withOwners s o)
  | revoke {k : Client} {tag named : Byte} {o : Vector (Option Client) 256} :
      OnlyReleases s o → Effect s (.revoke k tag named) (withOwners s o)
  | claimSchedule {k : Client} {tag : Byte} :
      Effect s (.claimSchedule k tag) (s.setToken (some k))
  | releaseSchedule {k : Client} {tag : Byte} :
      Effect s (.releaseSchedule k tag) (s.setToken none)
  | setLease {k : Client} {tag : Byte} {setting : Half} : settingOk setting.toNat = true →
      Effect s (.setLease k tag setting)
        (s.setLease k { setting := setting.toNat, counter := setting.toNat })
  | openBatch {k : Client} {tag target policy : Byte} {epoch : Half} {n : Fin 4} {id : Nat}
      {kind : TargetKind} {pol : Policy} : s.openContext k = none →
      s.findContext k (fun b => b.state == .free) = some n →
      id = s.freshId k 3 (s.previousId k) →
      Effect s (.openBatch k tag target policy epoch) ((s.setContext k n
        { Batch.empty with
          state := .opened, id := id, kind := kind, epoch := epoch,
          policy := pol }).setPreviousId k id)
  | restaged (i : Instr) {k : Client} {n : Fin 4} {b : Batch} : s.openContext k = some n →
      StagedFrom s (s.context k n) b → Effect s i (s.setContext k n b)
  | abort {k : Client} {tag : Byte} {n : Fin 4} : s.openContext k = some n →
      Effect s (.abort k tag) (s.setContext k n Batch.empty)
  | sealBatch {k : Client} {tag : Byte} {n : Fin 4} {b : Batch} {t : Epoch} {slipped : Bool} :
      s.openContext k = some n → b = s.context k n → b.records ≠ [] →
      (∀ x ∈ b.records, (s.slot x.slot).defined = true) →
      (∀ x ∈ b.records, ∀ y ∈ s.store, y.slot = x.slot → y.target ≠ t) →
      s.store.length + b.records.length ≤ 192 →
      Effect s (.sealBatch k tag) (sealTaken k n t slipped s)
  | cancel {k : Client} {tag id : Byte} {n : Fin 4} {r : BatchRef} :
      r = { client := k, id := id.toNat } → s.sealedContext r = some n →
      Effect s (.cancel k tag id) (((s.setStore (s.store.filter (fun x => x.batch != r))).setContext
        k n Batch.empty).setSealList (s.batches.sealList.filter (· != r)))
  | setGeometry {k : Client} {tag : Byte} {lspan vspan wopen wclose : Half} {edge : Byte}
      {e : Edge} : s.gen.run = .stopped →
      geometryOk lspan.toNat vspan.toNat wopen.toNat wclose.toNat = true →
      Effect s (.setGeometry k tag lspan vspan wopen wclose edge) (s.setGen { s.gen with
        lspan := lspan.toNat, vspan := vspan.toNat, wopen := wopen.toNat,
        wclose := wclose.toNat, edge := e })
  | start {k : Client} {tag mode : Byte} {epoch : Half} {m : Mode} {w : Work} :
      s.gen.run = .stopped → modeOf mode = some m →
      w = (dropStale epoch (begin (startRequested k s m epoch))).update beginPriming →
      (w.st.gen.primesOutstanding ≠ 0) → Effect s (.start k tag mode epoch) w.st
  | startAtOnce {k : Client} {tag mode : Byte} {epoch : Half} {m : Mode} {w : Work} :
      s.gen.run = .stopped → modeOf mode = some m →
      w = (dropStale epoch (begin (startRequested k s m epoch))).update beginPriming →
      w.st.gen.primesOutstanding = 0 → Effect s (.start k tag mode epoch) (endPriming w).st
  | stop {k : Client} {tag option : Byte} {o : StopOption} : s.gen.run ≠ .stopped →
      Effect s (.stop k tag option) (stopSchedule k o s)
  | resetSchedule {k : Client} {tag : Byte} : Effect s (.resetSchedule k tag)
      (resetBatchesAndStore
        (begin (resetQueueEntries (setIssuer none (enterStopped s))).draw)).st.draw.draw
  | readDevice {k : Client} {tag device : Byte} {register : Half} {width order : Byte}
      {d : DeviceNo} {o : ByteOrder} : (s.device d).isPresent = true →
      Effect s (.readDevice k tag device register width order)
        ((append (s.device d).bus (probeEntry k tag d register width.toNat o) s).setProbes k
          (s.probes k + 1))
  | defineDevice {k : Client} {tag device state bus address size retries : Byte} {d : DeviceNo}
      {r : Device} : s.gen.run = .stopped → deviceOf state bus address size retries = some r →
      (s.inUse d = false ∨ changesIdentity (s.device d) r = false) →
      (r.isPresent = false ∨ s.addressTaken d r = false) →
      Effect s (.defineDevice k tag device state bus address size retries) (s.setDevice d r)
  | busConfig {k : Client} {tag bus speed : Byte} {b : BusNo} {v : Speed} :
      Effect s (.busConfig k tag bus speed) (s.setEngine b { s.engine b with speed := v })
  | busRecover {k : Client} {tag bus : Byte} {b : BusNo} : (s.engine b).state = .fault →
      Effect s (.busRecover k tag bus) (s.setEngine b { s.engine b with
        state := .recovery, requester := some k, clock := (s.engine b).speed, xfer := none,
        stretching := false, stretchCount := 0, pulses := 0, sent := [] })
  | fetch {k : Client} {tag count : Byte} : (count = 0x01 ∨ count = 0x02) →
      Effect s (.fetch k tag count)
        (s.setEventQueue k ((s.eventQueue k).fetch count.toNat s.gen.c))
  | subscribe {k : Client} {tag set divider : Byte} : subscriptionOk set divider = true →
      Effect s (.subscribe k tag set divider)
        (s.setEventQueue k ((s.eventQueue k).subscribe set divider))
  | detach {k : Client} {tag : Byte} : Effect s (.detach k tag) (detachClient k s)

/-- What was only reported changes nothing, whatever the token test said. -/
theorem effect_withToken {i : Instr} {k : Client} {body : Service} {s : State}
    (h : Effect s i (body s).1.st) : Effect s i (withToken k body s).1.st := by
  unfold withToken
  split
  · exact h
  · exact .reports i

theorem effect_of_reports {i : Instr} {r : Work × Reply} {s : State} (h : Reports r s) :
    Effect s i r.1.st := by
  rw [h]; exact .reports i

/-- Every rule leaves the tables alone or has its one effect. -/
theorem ruleOf_effect (i : Instr) (s : State) : Effect s i (ruleOf i s).1.st := by
  cases i with
  | defineSlot k tag slot device register format kind min max initial =>
    refine effect_withToken ?_
    obtain h | ⟨d, hl, hr, hb, hd, hp, hf, h⟩ :=
      serveDefineSlot_cases k s slot device register format kind min max initial
    · exact effect_of_reports h
    · rw [h]; exact .defineSlot hl hr hb hd hp hf
  | undefineSlot k tag slot =>
    refine effect_withToken ?_
    obtain h | ⟨hl, hr, hp, hq, h⟩ := serveUndefineSlot_cases k s slot
    · exact effect_of_reports h
    · rw [h]; exact .undefineSlot hl hr hp hq
  | writeNow k tag slot value =>
    obtain h | ⟨d, b, hd, hc, ha, hdev, hb, h⟩ := serveWriteNow_cases k s tag slot value
    · exact effect_of_reports h
    · simp only [ruleOf, h]; exact .writeNow rfl hd hc ha hdev hb
  | claim k tag first count =>
    obtain h | ⟨hd, h⟩ := serveClaim_cases k s first count
    · exact effect_of_reports h
    · simp only [ruleOf, h, begin_st]
      have hframe := ClaimTable.claimSlots_frame k (slotRange first.toNat count.toNat) s
      have howner := ClaimTable.claimSlots_owner k (slotRange first.toNat count.toNat) s
      rw [ClaimTable.claimSlots] at hframe
      rw [hframe]
      refine .claim fun i => ?_
      by_cases hi : i ∈ slotRange first.toNat count.toNat
      · exact .inr (hd i hi)
      · exact .inl ((howner i).trans (if_neg hi))
  | release k tag first count =>
    obtain h | h := serveRelease_cases k s first count
    · exact effect_of_reports h
    · simp only [ruleOf, h, begin_st]
      rw [releaseSlots_frame]
      refine .release fun i => ?_
      have := releaseSlots_owner k (slotRange first.toNat count.toNat) s i
      split at this
      · exact .inl this
      · exact .inr this
  | claimSchedule k tag =>
    obtain h | h := serveClaimSchedule_cases k s
    · exact effect_of_reports h
    · simp only [ruleOf, h]; exact .claimSchedule
  | releaseSchedule k tag =>
    obtain h | h := serveReleaseSchedule_cases k s
    · exact effect_of_reports h
    · simp only [ruleOf, h]; exact .releaseSchedule
  | revoke k tag named =>
    refine effect_withToken ?_
    obtain h | ⟨j, h⟩ := serveRevoke_cases k s named
    · exact effect_of_reports h
    · rw [h, offerTo_st, begin_st, releaseAll_frame]
      refine .revoke fun i => ?_
      have := releaseAll_owner j s i
      split at this
      · exact .inl this
      · exact .inr this
  | setLease k tag setting =>
    obtain h | ⟨hok, h⟩ := serveSetLease_cases k s setting
    · exact effect_of_reports h
    · simp only [ruleOf, h]; exact .setLease hok
  | openBatch k tag target policy epoch =>
    obtain h | ⟨n, kind, pol, ho, hf, h⟩ := serveOpen_cases k s target policy epoch
    · exact effect_of_reports h
    · simp only [ruleOf, h]; exact .openBatch ho hf rfl
  | stage k tag slot value =>
    obtain h | ⟨n, b, ho, hs, h⟩ := serveStage_cases k s slot value
    · exact effect_of_reports h
    · simp only [ruleOf, h]; exact .restaged _ ho (stagedFrom_stageOne hs)
  | stageRun k tag first count values =>
    obtain h | ⟨n, ho, h⟩ := serveStageRun_cases k s first count values
    · exact effect_of_reports h
    · simp only [ruleOf, h]; refine .restaged _ ho ?_
      exact stagedFrom_stageRunOver s k _ { batch := s.context k n, accepted := 0, replaced := 0, stop := .ok, stopSlot := slotNo first }
  | unstage k tag slot =>
    obtain h | ⟨n, ho, h⟩ := serveUnstage_cases k s slot
    · exact effect_of_reports h
    · simp only [ruleOf, h]; exact .restaged _ ho (stagedFrom_unstage ..)
  | abort k tag =>
    obtain h | ⟨n, ho, h⟩ := serveAbort_cases k s
    · exact effect_of_reports h
    · simp only [ruleOf, h]; exact .abort ho
  | sealBatch k tag =>
    obtain h | ⟨n, b, t, slipped, ho, hb, hne, hd, hc, hroom, h⟩ := serveSeal_cases k s
    · exact effect_of_reports h
    · simp only [ruleOf, h]; exact .sealBatch ho hb hne hd hc hroom
  | cancel k tag id =>
    obtain h | ⟨n, ho, h⟩ := serveCancel_cases k s id
    · exact effect_of_reports h
    · simp only [ruleOf, h]; exact .cancel rfl ho
  | readBatch k tag id => exact effect_of_reports (serveReadBatch_reports k s id)
  | setGeometry k tag lspan vspan wopen wclose edge =>
    refine effect_withToken ?_
    obtain h | ⟨e, hr, hok, h⟩ := serveSetGeometry_cases s lspan vspan wopen wclose edge
    · exact effect_of_reports h
    · rw [h]; exact .setGeometry hr hok
  | start k tag mode epoch =>
    refine effect_withToken ?_
    obtain h | ⟨m, w, hr, hm, hw, ⟨hn, h⟩ | ⟨hn, h⟩⟩ := serveStart_cases k s mode epoch
    · exact effect_of_reports h
    · rw [h]; exact .startAtOnce hr hm hw hn
    · rw [h]; exact .start hr hm hw hn
  | stop k tag option =>
    refine effect_withToken ?_
    obtain h | ⟨o, hr, h⟩ := serveStop_cases k s option
    · exact effect_of_reports h
    · rw [h]; exact .stop hr
  | resetSchedule k tag =>
    refine effect_withToken ?_
    rw [serveResetSchedule_st]; exact .resetSchedule
  | readDevice k tag device register width order =>
    obtain h | ⟨d, o, hp, h⟩ := serveReadDevice_cases k s tag device register width order
    · exact effect_of_reports h
    · simp only [ruleOf, h]; exact .readDevice hp
  | readQueue k tag bus =>
    obtain h | h := serveReadQueue_cases s bus
    · exact effect_of_reports h
    · simp only [ruleOf, h]; exact .draws _
  | defineDevice k tag device state bus address size retries =>
    refine effect_withToken ?_
    obtain h | ⟨d, r, hr, hd, hu, ht, h⟩ :=
      serveDefineDevice_cases s device state bus address size retries
    · exact effect_of_reports h
    · rw [h]; exact .defineDevice hr hd hu ht
  | busConfig k tag bus speed =>
    refine effect_withToken ?_
    obtain h | ⟨b, v, h⟩ := serveBusConfig_cases s bus speed
    · exact effect_of_reports h
    · rw [h]; exact .busConfig
  | busRecover k tag bus =>
    refine effect_withToken ?_
    obtain h | ⟨b, hf, h⟩ := serveBusRecover_cases k s bus
    · exact effect_of_reports h
    · rw [h]; exact .busRecover hf
  | readBus k tag bus => exact effect_of_reports (serveReadBus_reports s bus)
  | fetch k tag count =>
    obtain h | ⟨hc, h⟩ := serveFetch_cases k s count
    · exact effect_of_reports h
    · simp only [ruleOf, h]; exact .fetch hc
  | subscribe k tag set divider =>
    obtain h | ⟨hok, h⟩ := serveSubscribe_cases k s set divider
    · exact effect_of_reports h
    · simp only [ruleOf, h]; exact .subscribe hok
  | detach k tag => exact .detach
  | _ => exact .reports _

/-! ### A law from the effects and the events -/

/-- What the events of the tables have to keep for `P` to be kept by every one of them. -/
structure EventLaw (P : State → Prop) : Prop where
  tick : ∀ s held0 held1, P s → P (tick held0 held1 s)
  lapse : ∀ s k, P s → P (tickLease (begin s) k).st
  line : ∀ s, P s → P (advanceLine s)
  windowOpen : ∀ s, s.gen.openDue = true → P s → P (handWindowOpen s)
  windowClose : ∀ s, s.gen.closeDue = true → P s → P (handWindowClose s)
  epochEnd : ∀ s, s.gen.run.inEpoch = true → P s → P (endEpoch s).st
  trigger : ∀ s, P s → P (takeTrigger s).st
  transferStart : ∀ s b dataLow, s.mayStart b = true → P s → P (startTransfer b dataLow s)
  nack : ∀ s b t n dataLow, (s.engine b).attempting = some t → P s →
    P (retryOrFail b { t with made := t.made + 1 } dataLow
      (begin (putOnWires b (nackedWire n t.wire) s))).st
  transferEnd : ∀ s b t bytes, (s.engine b).attempting = some t → P s →
    P (endTransfer b true bytes .idle (begin (putOnWires b t.wire s))).st
  stretch : ∀ s b passed, (s.engine b).limitExceeded = true → P s → P (exceedStretch b passed s).st
  recovery : ∀ s b lowLooks freed dataLow, (s.engine b).state = .recovery → P s →
    P (endRecovery b lowLooks freed dataLow s).st
  stretchEnd : ∀ s b, P s → P (s.setEngine b { s.engine b with stretching := false })

/-- A law that the effects of the requests and the events of the tables keep is kept by every
command but a pin reset, and by that one too when it holds after reset. -/
theorem commandKeeps_of_effects {P : State → Prop} {i : Instr} (E : EventLaw P)
    (R : ∀ {s t}, Effect s i t → P s → P t)
    (hreset : ∀ cause, i = .pinReset cause → P State.reset) : CommandKeeps P i := by
  cases i with
  | housekeepingTick held0 held1 => exact fun s => E.tick s held0 held1
  | leaseLapse k => exact fun s => E.lapse s k
  | lineAdvance => exact E.line
  | windowOpen => exact E.windowOpen
  | windowClose => exact E.windowClose
  | epochEnd => exact E.epochEnd
  | trigger edge heldFor => exact E.trigger
  | transferStart b dataLow => exact fun s => E.transferStart s b dataLow
  | attemptNack b nack => exact fun s t => E.nack s b t nack.byte nack.dataLow
  | transferEnd b r0 r1 r2 r3 => exact fun s t => E.transferEnd s b t [r0, r1, r2, r3]
  | stretchLimitExceeded stretch => exact fun s => E.stretch s stretch.bus stretch.passed
  | recoveryEnd b lowLooks dataHigh clockHigh dataLow =>
    exact fun s => E.recovery s b lowLooks (dataHigh && clockHigh) dataLow
  | stretchEnd b => exact fun s => E.stretchEnd s b
  | pinReset cause => exact hreset cause rfl
  | pollNone => trivial
  | messageTaken => trivial
  | messageRefused => trivial
  | readTransaction => trivial
  | framingDetection => trivial
  | resetRelease => trivial
  | startupEnd => trivial
  | twoWireCodeByte => trivial
  | fourWireFrameStart => trivial
  | _ => exact fun s hs => R (ruleOf_effect _ s) hs

theorem keptByEveryStep_of_effects {P : State → Prop} (L : TableLaw P) (E : EventLaw P)
    (R : ∀ {i s t}, Effect s i t → P s → P t) (hreset : P State.reset) : KeptByEveryStep P :=
  keptByEveryStep L (fun _ => commandKeeps_of_effects E R (fun _ _ => hreset))

end Sys2Proof.Effects
end


section
/-! PROOFS. What the operations of the schedule make of the generator, and the generator's law
(the first half of O54). -/

set_option Elab.async false

namespace Sys2Proof.Schedule

open Sys2Proof Sys2Proof.Machine Sys2Proof.Commands Sys2Proof.Rules Sys2Proof.Effects

/-! ### The generator after each operation -/

@[simp] theorem setIssuer_gen (k : Option Client) (s : State) :
    (setIssuer k s).gen = { s.gen with issuer := k } := rfl

@[simp] theorem beginEpoch_gen (c : Epoch) (s : State) : (beginEpoch c s).gen =
    { s.gen with run := .running, c := c, line := 0, window := .shut } := rfl

@[simp] theorem waitForTrigger_gen (s : State) : (waitForTrigger s).gen =
    { s.gen with run := .waitTrigger, line := 0, window := .shut } := rfl

@[simp] theorem clearPrimes_gen (s : State) : (clearPrimes s).gen =
    { s.gen with primeList := [], primesOutstanding := 0 } := rfl

@[simp] theorem enterStopped_gen (s : State) : (enterStopped s).gen =
    { s.gen with
      run := .stopped, line := 0, latch := false, primeList := [], primesOutstanding := 0,
      window := .shut } := by
  unfold enterStopped
  split <;> rfl

@[simp] theorem reportPrimed_gen (w : Work) :
    (reportPrimed w).st.gen = { w.st.gen with issuer := none } := by
  simp [reportPrimed]

@[simp] theorem handWindowOpen_gen (s : State) :
    (handWindowOpen s).gen = { s.gen with window := .opened } := rfl

@[simp] theorem handWindowClose_gen (s : State) :
    (handWindowClose s).gen = { s.gen with window := .closed } := rfl

@[simp] theorem startEpochNow_gen (c : Epoch) (w : Work) : (startEpochNow c w).st.gen =
    { w.st.gen with run := .running, c := c, line := 0, window := .shut } := by
  simp [startEpochNow]

@[simp] theorem beginFirstEpoch_gen (w : Work) : (beginFirstEpoch w).st.gen =
    { w.st.gen with
      run := .running, c := w.st.gen.startEpoch, line := 0, window := .shut, issuer := none } := by
  simp [beginFirstEpoch]

@[simp] theorem failPriming_gen (i : SlotNo) (w : Work) : (failPriming i w).st.gen =
    { w.st.gen with
      run := .stopped, line := 0, latch := false, primeList := [], primesOutstanding := 0,
      window := .shut, issuer := none } := by
  unfold failPriming
  dsimp only
  split <;> simp

/-- R98: the generator when priming has ended. In FREE mode epoch S is still to begin. -/
def Generator.primed (g : Generator) : Generator :=
  match g.mode with
  | .free => { g with primeList := [], primesOutstanding := 0 }
  | .triggered => { g with
      run := .waitTrigger, c := g.startEpoch - 1, line := 0, window := .shut, primeList := [],
      primesOutstanding := 0, issuer := none }

theorem closePriming_gen (w : Work) : (closePriming w).st.gen = Generator.primed w.st.gen := by
  obtain ⟨v, rfl, ⟨hm, h⟩ | ⟨hm, h⟩⟩ := closePriming_cases w
  all_goals
    simp only [Work.update_st, clearPrimes_gen, dropStale_gen] at hm
    rw [h, Generator.primed, hm]
    simp [hm]

/-- R97: placing takes slots off the prime list and changes nothing else of the generator. -/
theorem placePrime_gen (s : State) (i : SlotNo) :
    ∃ l : List SlotNo, l.Sublist s.gen.primeList ∧
      (placePrime s i).gen = { s.gen with primeList := l } := by
  obtain h | ⟨d, b, -, -, -, h⟩ := placePrime_cases s i
  · exact ⟨_, List.Sublist.refl _, by rw [h]⟩
  · exact ⟨_, List.filter_sublist, by rw [h]; rfl⟩

theorem placeAll_gen (is : List SlotNo) (s : State) :
    ∃ l : List SlotNo, l.Sublist s.gen.primeList ∧
      (is.foldl placePrime s).gen = { s.gen with primeList := l } := by
  induction is generalizing s with
  | nil => exact ⟨_, List.Sublist.refl _, rfl⟩
  | cons i is ih =>
    obtain ⟨l, hl, h⟩ := placePrime_gen s i
    obtain ⟨m, hm, h'⟩ := ih (placePrime s i)
    rw [h] at hm h'
    exact ⟨m, hm.trans hl, h'⟩

theorem placePrimes_gen (s : State) :
    ∃ l : List SlotNo, l.Sublist s.gen.primeList ∧
      (placePrimes s).gen = { s.gen with primeList := l } := placeAll_gen _ s

theorem fillPlaces_gen (b : BusNo) (s : State) :
    ∃ l : List SlotNo, l.Sublist s.gen.primeList ∧
      (fillPlaces b s).gen = { s.gen with primeList := l } := by
  unfold fillPlaces
  dsimp only
  split
  · have h := placePrimes_gen (refill b s)
    simpa only [refill_gen] using h
  · exact ⟨_, List.Sublist.refl _, refill_gen b s⟩

theorem detachQueue_gen (k : Client) (s : State) (b : BusNo) :
    ∃ l : List SlotNo, l.Sublist s.gen.primeList ∧
      (detachQueue k s b).gen = { s.gen with primeList := l } :=
  fillPlaces_gen b ((s.setProbes k _).setQueue b _)

/-- R165: DETACH at the claims, the OPEN batch and the two queues in turn. -/
def detachTables (k : Client) (s : State) : State :=
  detachQueue k (detachQueue k (detachBatch k (detachClaims k s)) 0) 1

theorem detachClient_eq (k : Client) (s : State) : detachClient k s =
    (detachTables k s).setEventQueue k ((detachTables k s).eventQueue k).detach := by
  simp only [detachClient, detachTables, allBuses, List.foldl_cons, List.foldl_nil]

theorem detachBatch_gen (k : Client) (s : State) : (detachBatch k s).gen = s.gen := by
  unfold detachBatch
  split <;> rfl

theorem detachClaims_gen (k : Client) (s : State) : (detachClaims k s).gen = s.gen := by
  unfold detachClaims
  dsimp only
  split <;> rfl

theorem detachClient_gen (k : Client) (s : State) :
    ∃ l : List SlotNo, l.Sublist s.gen.primeList ∧
      (detachClient k s).gen = { s.gen with primeList := l } := by
  rw [detachClient_eq, State.setEventQueue_gen, detachTables]
  obtain ⟨l, hl, h⟩ := detachQueue_gen k (detachBatch k (detachClaims k s)) 0
  obtain ⟨m, hm, h'⟩ := detachQueue_gen k (detachQueue k (detachBatch k (detachClaims k s)) 0) 1
  rw [h] at hm h'
  rw [detachBatch_gen, detachClaims_gen] at hl h'
  exact ⟨m, hm.trans hl, h'⟩

/-- R91: settling hands on window moments of the epoch in progress. -/
theorem settleWindow_gen (s : State) :
    (settleWindow s).gen = s.gen ∨ s.gen.run.inEpoch = true ∧
      ∃ v : WindowView, (settleWindow s).gen = { s.gen with window := v } := by
  have hrun : ∀ g : Generator, g.openDue = true ∨ g.closeDue = true → g.run.inEpoch = true := by
    intro g h
    simp only [Generator.openDue, Generator.closeDue, Bool.and_eq_true] at h
    tauto
  unfold settleWindow
  dsimp only
  split
  · rename_i ho
    refine .inr ⟨hrun _ (.inl ho), ?_⟩
    split
    · exact ⟨_, rfl⟩
    · exact ⟨_, rfl⟩
  · split
    · rename_i hc
      exact .inr ⟨hrun _ (.inr hc), _, rfl⟩
    · exact .inl rfl

/-! ### The generator through the end of a transfer -/

/-- What the end of one entry, with the filling of its place, can do to the generator. -/
inductive PrimingMove (done : Bool) (g : Generator) : Generator → Prop
  | place (l : List SlotNo) : l.Sublist g.primeList → PrimingMove done g { g with primeList := l }
  | count : done = true → g.run = .priming → 2 ≤ g.primesOutstanding →
      PrimingMove done g { g with primesOutstanding := g.primesOutstanding - 1 }
  | close : done = true → g.run = .priming → PrimingMove done g (Generator.primed g)
  | fail : done = false → g.run = .priming → PrimingMove done g { g with
      run := .stopped, line := 0, latch := false, primeList := [], primesOutstanding := 0,
      window := .shut, issuer := none }

theorem countPrime_gen (w : Work) :
    (countPrime w).st.gen = if w.st.gen.primesOutstanding - 1 = 0
      then Generator.primed { w.st.gen with primesOutstanding := w.st.gen.primesOutstanding - 1 }
      else { w.st.gen with primesOutstanding := w.st.gen.primesOutstanding - 1 } := by
  obtain ⟨v, rfl, ⟨h, e⟩ | ⟨h, e⟩⟩ := countPrime_cases w
  all_goals
    simp only [Work.update_st, State.setGen_gen] at h
    rw [e]
  · rw [closePriming_gen, if_pos h]; rfl
  · rw [if_neg h]; rfl

theorem primed_primesOutstanding (g : Generator) (n : Nat) :
    Generator.primed { g with primesOutstanding := n } = Generator.primed g := by
  unfold Generator.primed
  cases g.mode <;> rfl

theorem endPrime_gen (e : Entry) (done : Bool) (w : Work) :
    (endPrime e done w).st.gen = w.st.gen ∨
      PrimingMove done w.st.gen (endPrime e done w).st.gen := by
  unfold endPrime
  dsimp only
  split
  · rename_i hrun
    have hrun : w.st.gen.run = .priming := by simpa using hrun.1
    split
    · rename_i hdone
      split
      · exact .inl (by simp)
      · rename_i hsome
        rw [countPrime_gen]
        simp only [Work.update_st, completeSlot_gen] at hsome ⊢
        split
        · rw [primed_primesOutstanding]
          exact .inr (.close hdone hrun)
        · exact .inr (.count hdone hrun (by omega))
    · rename_i hdone
      split
      · rw [failPriming_gen]
        simp only [Work.update_st, completeSlot_gen]
        exact .inr (.fail (by simpa using hdone) hrun)
      · exact .inl (by simp)
  · exact .inl (by simp)

theorem handOn_gen (e : Entry) (done : Bool) (bytes : List Byte) (w : Work) :
    (handOn e done bytes w).st.gen = w.st.gen ∨
      PrimingMove done w.st.gen (handOn e done bytes w).st.gen := by
  unfold handOn
  split
  · exact .inl (endWrite_gen ..)
  · exact .inl (endNow_gen ..)
  · exact endPrime_gen e done w
  · exact .inl (endProbe_gen ..)

/-- R119, R120: the ends of a transfer's entries move the generator by `PrimingMove`s alone. -/
theorem endEntries_gen (b : BusNo) (done : Bool) (bytes : List Byte) (n : Nat) (w : Work) :
    Relation.ReflTransGen (PrimingMove done) w.st.gen (endEntries b done bytes n w).st.gen := by
  induction n generalizing w with
  | zero => exact .refl
  | succ n ih =>
    cases hq : w.st.queue b with
    | nil => simp only [endEntries, hq]; exact .refl
    | cons e rest =>
      rw [endEntries_cons b done bytes n w e rest hq]
      refine .trans ?_ (ih _)
      set v := handOn e done bytes (w.update (·.setQueue b rest)) with hv
      have hhand : Relation.ReflTransGen (PrimingMove done) w.st.gen v.st.gen := by
        rcases handOn_gen e done bytes (w.update (·.setQueue b rest)) with h | h
        · rw [hv, h]; exact .refl
        · exact .single h
      obtain ⟨l, hl, h⟩ := fillPlaces_gen b v.st
      refine hhand.tail ?_
      rw [Work.update_st, h]
      exact .place l hl

/-- R90, R98: the generator as epoch S begins. -/
def Generator.firstEpoch (g : Generator) : Generator :=
  { g with run := .running, c := g.startEpoch, line := 0, window := .shut, issuer := none }

/-- R131: the engine of bus `b` gives its transfer up and goes to state `next`. -/
def freeEngine (b : BusNo) (next : EngineState) (s : State) : State :=
  s.setEngine b { s.engine b with
    state := next, xfer := none, stretching := false, stretchCount := 0 }

/-- R119, R120: the engine is freed and every carried entry leaves; then epoch S may begin. -/
theorem endTransfer_cases (b : BusNo) (done : Bool) (bytes : List Byte) (next : EngineState)
    (w : Work) : ∃ v : Work,
      v = endEntries b done bytes (carriedCount (w.st.queue b)) (w.update (freeEngine b next)) ∧
      ((w.st.gen.run = .priming ∧ 0 < w.st.gen.primesOutstanding ∧ v.st.gen.run = .priming ∧
          v.st.gen.primesOutstanding = 0 ∧
          endTransfer b done bytes next w = beginFirstEpoch v) ∨
        ¬ ((w.st.gen.run = .priming ∧ 0 < w.st.gen.primesOutstanding) ∧
          v.st.gen.run = .priming ∧ v.st.gen.primesOutstanding = 0) ∧
          endTransfer b done bytes next w = v) := by
  refine ⟨_, rfl, ?_⟩
  by_cases h : (w.st.gen.run = .priming ∧ 0 < w.st.gen.primesOutstanding) ∧
    (endEntries b done bytes (carriedCount (w.st.queue b))
      (w.update (freeEngine b next))).st.gen.run = .priming ∧
    (endEntries b done bytes (carriedCount (w.st.queue b))
      (w.update (freeEngine b next))).st.gen.primesOutstanding = 0
  · exact .inl ⟨h.1.1, h.1.2, h.2.1, h.2.2, if_pos h⟩
  · exact .inr ⟨h, if_neg h⟩

/-- R119, R120: what the end of a transfer makes of the generator. -/
theorem endTransfer_gen (b : BusNo) (done : Bool) (bytes : List Byte) (next : EngineState)
    (w : Work) : ∃ g : Generator, Relation.ReflTransGen (PrimingMove done) w.st.gen g ∧
      ((endTransfer b done bytes next w).st.gen = g ∨
        w.st.gen.run = .priming ∧ 0 < w.st.gen.primesOutstanding ∧ g.run = .priming ∧
          g.primesOutstanding = 0 ∧
          (endTransfer b done bytes next w).st.gen = Generator.firstEpoch g) := by
  obtain ⟨v, hv, h⟩ := endTransfer_cases b done bytes next w
  refine ⟨v.st.gen, ?_, ?_⟩
  · rw [hv]; exact endEntries_gen b done bytes _ (w.update (freeEngine b next))
  · rcases h with ⟨hrun, hsome, hrun', hnone, e⟩ | ⟨-, e⟩
    · exact .inr ⟨hrun, hsome, hrun', hnone, by rw [e, beginFirstEpoch_gen]; rfl⟩
    · exact .inl (by rw [e])

/-! ### The generator's law -/

/-- `GeneratorWithinRules` as a law of the generator alone, with its clauses named. -/
structure GenOk (g : Generator) : Prop where
  geometry : geometryOk g.lspan g.vspan g.wopen g.wclose = true
  line : g.line < g.vspan
  primes : g.run ≠ .priming → g.primeList = [] ∧ g.primesOutstanding = 0
  issuer : g.run ≠ .priming → g.run ≠ .stopping → g.issuer = none
  quiet : g.run.inEpoch = false → g.line = 0 ∧ g.latch = false ∧ g.window = .shut
  waiting : g.run = .waitTrigger → g.mode = .triggered

theorem generatorWithinRules_iff (s : State) : GeneratorWithinRules s ↔ GenOk s.gen :=
  ⟨fun ⟨a, b, c, d, e, f⟩ => ⟨a, b, c, d, e, f⟩, fun ⟨a, b, c, d, e, f⟩ => ⟨a, b, c, d, e, f⟩⟩

theorem vspan_pos {g : Generator} (h : GenOk g) : 0 < g.vspan :=
  lt_of_le_of_lt (Nat.zero_le _) h.line

/-- While primes are outstanding or the prime list is empty, the end of priming leaves no slot on the
list. -/
def PrimesLeft (g : Generator) : Prop :=
  g.run = .priming → 0 < g.primesOutstanding ∨ g.primeList = []

theorem genOk_place {g : Generator} {l : List SlotNo} (h : GenOk g) (hl : l.Sublist g.primeList) :
    GenOk { g with primeList := l } :=
  { h with primes := fun hrun => ⟨List.eq_nil_of_subset_nil ((h.primes hrun).1 ▸ hl.subset),
      (h.primes hrun).2⟩ }

theorem genOk_primed {g : Generator} (h : GenOk g) (hrun : g.run = .priming) :
    GenOk (Generator.primed g) := by
  have hpos := vspan_pos h
  obtain ⟨hline, hlatch, hwindow⟩ := h.quiet (by rw [hrun]; rfl)
  unfold Generator.primed
  split
  · exact { h with primes := fun _ => ⟨rfl, rfl⟩ }
  · exact ⟨h.geometry, hpos, fun _ => ⟨rfl, rfl⟩, fun _ _ => rfl,
      fun _ => ⟨rfl, hlatch, rfl⟩, fun _ => ‹_›⟩

theorem genOk_stoppedBy {g : Generator} (h : GenOk g) : GenOk { g with
    run := .stopped, line := 0, latch := false, primeList := [], primesOutstanding := 0,
    window := .shut, issuer := none } :=
  have hpos := vspan_pos h
  ⟨h.geometry, hpos, fun _ => ⟨rfl, rfl⟩, fun _ _ => rfl, fun _ => ⟨rfl, rfl, rfl⟩, nofun⟩

/-- An epoch begins from any state without primes or an issuer. -/
theorem genOk_running {g : Generator} (h : GenOk g) (c : Epoch)
    (hprimes : g.primeList = [] ∧ g.primesOutstanding = 0) (hnone : g.issuer = none) :
    GenOk { g with run := .running, c := c, line := 0, window := .shut } :=
  have hpos := vspan_pos h
  ⟨h.geometry, hpos, fun _ => hprimes, fun _ _ => hnone, nofun, nofun⟩

theorem genOk_firstEpoch {g : Generator} (h : GenOk g)
    (hprimes : g.primeList = [] ∧ g.primesOutstanding = 0) : GenOk (Generator.firstEpoch g) :=
  have hpos := vspan_pos h
  ⟨h.geometry, hpos, fun _ => hprimes, fun _ _ => rfl, nofun, nofun⟩

theorem genOk_window {g : Generator} (h : GenOk g) (hrun : g.run.inEpoch = true)
    (v : WindowView) : GenOk { g with window := v } :=
  { h with quiet := fun hout => absurd hrun (by simp [hout]) }

theorem genOk_priming {g : Generator} (h : GenOk g) (hrun : g.run = .stopped)
    (l : List SlotNo) (n : Nat) (m : Mode) (epoch : Epoch) (k : Option Client) : GenOk { g with
      run := .priming, mode := m, startEpoch := epoch, issuer := k, line := 0, window := .shut,
      primeList := l, primesOutstanding := n } :=
  have hpos := vspan_pos h
  ⟨h.geometry, hpos, fun hne => absurd rfl hne, fun hne => absurd rfl hne,
    fun _ => ⟨rfl, (h.quiet (by rw [hrun]; rfl)).2.1, rfl⟩, nofun⟩

theorem genOk_move {done : Bool} {g g' : Generator} (m : PrimingMove done g g') (h : GenOk g) :
    GenOk g' := by
  cases m with
  | place l hl => exact genOk_place h hl
  | count _ hrun _ => exact { h with primes := fun hne => absurd hrun hne }
  | close _ hrun => exact genOk_primed h hrun
  | fail _ _ => exact genOk_stoppedBy h

theorem primesLeft_move {done : Bool} {g g' : Generator} (m : PrimingMove done g g')
    (h : PrimesLeft g) : PrimesLeft g' := by
  cases m with
  | place l hl =>
    exact fun hrun => (h hrun).imp id fun hnil => List.eq_nil_of_subset_nil (by simpa [hnil] using hl.subset)
  | count _ _ hmany => exact fun _ => .inl (by dsimp only; omega)
  | close _ _ =>
    unfold Generator.primed
    split
    · exact fun _ => .inr rfl
    · nofun
  | fail _ _ => nofun

theorem genOk_moves {done : Bool} {g g' : Generator}
    (m : Relation.ReflTransGen (PrimingMove done) g g') (h : GenOk g) : GenOk g' := by
  induction m with
  | refl => exact h
  | tail _ m ih => exact genOk_move m ih

theorem primesLeft_moves {done : Bool} {g g' : Generator}
    (m : Relation.ReflTransGen (PrimingMove done) g g') (h : PrimesLeft g) : PrimesLeft g' := by
  induction m with
  | refl => exact h
  | tail _ m ih => exact primesLeft_move m ih

theorem endTransfer_genOk (b : BusNo) (done : Bool) (bytes : List Byte) (next : EngineState)
    (w : Work) (h : GenOk w.st.gen) : GenOk (endTransfer b done bytes next w).st.gen := by
  obtain ⟨g, hg, e | ⟨hrun, hsome, hg', hnone, e⟩⟩ := endTransfer_gen b done bytes next w
  · rw [e]; exact genOk_moves hg h
  · rw [e]
    have hleft := primesLeft_moves hg (fun _ => .inl hsome) hg'
    exact genOk_firstEpoch (genOk_moves hg h) ⟨hleft.resolve_left (by omega), hnone⟩

theorem retryOrFail_genOk (b : BusNo) (t : Transfer) (dataLow : Bool) (w : Work)
    (h : GenOk w.st.gen) : GenOk (retryOrFail b t dataLow w).st.gen := by
  unfold retryOrFail
  split
  · simpa using h
  · exact endTransfer_genOk _ _ _ _ _ h

theorem enterFault_genOk (b : BusNo) (w : Work) (h : GenOk w.st.gen) :
    GenOk (enterFault b w).st.gen := by
  unfold enterFault
  dsimp only
  split
  · simpa using endTransfer_genOk _ _ _ _ _ h
  · simpa using h

theorem settleWindow_genOk {s : State} (h : GenOk s.gen) : GenOk (settleWindow s).gen := by
  obtain e | ⟨hrun, v, e⟩ := settleWindow_gen s
  · rwa [e]
  · rw [e]; exact genOk_window h hrun v

theorem settleWindow_run (s : State) : (settleWindow s).gen.run = s.gen.run := by
  obtain e | ⟨-, v, e⟩ := settleWindow_gen s <;> rw [e]

theorem endEpoch_genOk {s : State} (h : GenOk s.gen) :
    GenOk (endEpoch s).st.gen := by
  have hs := settleWindow_genOk h
  unfold endEpoch
  dsimp only
  generalize settleWindow s = u at hs ⊢
  have hpos := vspan_pos hs
  split
  · rename_i hrun
    have hprimes := hs.primes (by simp [hrun])
    have hnone := hs.issuer (by simp [hrun]) (by simp [hrun])
    split
    · rw [startEpochNow_gen]
      exact genOk_running hs _ hprimes hnone
    · rename_i hmode
      split
      · rw [startEpochNow_gen]
        exact ⟨hs.geometry, hpos, fun _ => hprimes, fun _ _ => hnone, nofun, nofun⟩
      · rename_i hlatch
        exact ⟨hs.geometry, hpos, fun _ => hprimes, fun _ _ => hnone,
          fun _ => ⟨rfl, by simpa using hlatch, rfl⟩, fun _ => hmode⟩
  · simp only [completeStop, Work.update_st, reportSchedule_st, setIssuer_gen, enterStopped_gen]
    exact genOk_stoppedBy hs
  all_goals exact hs

theorem takeTrigger_genOk {s : State} (h : GenOk s.gen) : GenOk (takeTrigger s).st.gen := by
  unfold takeTrigger
  split
  · rename_i hrun
    rw [startEpochNow_gen]
    exact genOk_running h _ (h.primes (by simp [hrun])) (h.issuer (by simp [hrun]) (by simp [hrun]))
  · rename_i hrun _
    have hquiet : s.gen.run.inEpoch = true := by rw [hrun]; rfl
    split
    · simp only [offerWhere_st, begin_st, State.setGen_gen]
      exact { h with }
    · exact { h with quiet := fun hout => absurd hquiet (Bool.eq_false_iff.mp hout) }
  · exact h

theorem advanceLine_genOk {s : State} (h : GenOk s.gen) : GenOk (advanceLine s).gen := by
  unfold advanceLine
  split
  · rename_i hgo
    simp only [Bool.and_eq_true, decide_eq_true_eq] at hgo
    obtain ⟨hrun, hline⟩ := hgo
    have hs := settleWindow_genOk h
    obtain e | ⟨-, v, e⟩ := settleWindow_gen s
    all_goals
      rw [e] at hs
      simp only [outputsAtLine_gen, State.setGen_gen, e]
      exact { hs with line := hline, quiet := fun hout => absurd hrun (by simp [hout]) }
  · exact h

theorem exceedStretch_genOk (b : BusNo) (passed : Nat) {s : State} (h : GenOk s.gen) :
    GenOk (exceedStretch b passed s).st.gen := by
  unfold exceedStretch
  split
  · simpa using h
  · exact enterFault_genOk _ _ h
  · exact h

theorem endRecovery_genOk (b : BusNo) (lowLooks : Nat) (freed dataLow : Bool) {s : State}
    (h : GenOk s.gen) : GenOk (endRecovery b lowLooks freed dataLow s).st.gen := by
  unfold endRecovery
  dsimp only
  split
  · split
    · exact retryOrFail_genOk _ _ _ _ h
    · simpa [recovered] using h
  · exact enterFault_genOk _ _ h

/-! ### START and STOP -/

theorem beginPriming_gen (s : State) : ∃ l : List SlotNo, l.Sublist s.primeSlots ∧
    (beginPriming s).gen = { s.gen with
      run := .priming, line := 0, window := .shut, primeList := l,
      primesOutstanding := s.primeSlots.length } := by
  obtain ⟨l, hl, h⟩ := placePrimes_gen
    ((outputsInactive (s.setGen { s.gen with run := .priming, line := 0, window := .shut })).setGen
      { s.gen with
        run := .priming, line := 0, window := .shut, primeList := s.primeSlots,
        primesOutstanding := s.primeSlots.length })
  exact ⟨l, hl, h⟩

theorem endPriming_gen (w : Work) : (endPriming w).st.gen =
    match w.st.gen.mode with
    | .free => Generator.firstEpoch (Generator.primed w.st.gen)
    | .triggered => Generator.primed w.st.gen := by
  have hmode : (closePriming w).st.gen.mode = w.st.gen.mode := by
    rw [closePriming_gen, Generator.primed]
    split
    · rfl
    · rfl
  unfold endPriming
  dsimp only
  rw [hmode]
  cases h : w.st.gen.mode with
  | free => simp only [beginFirstEpoch_gen, closePriming_gen, Generator.firstEpoch]
  | triggered => simp only [closePriming_gen]

theorem endPriming_genOk {w : Work} (h : GenOk w.st.gen) (hrun : w.st.gen.run = .priming) :
    GenOk (endPriming w).st.gen := by
  rw [endPriming_gen]
  have hp := genOk_primed h hrun
  split
  · rename_i hmode
    refine genOk_firstEpoch hp ?_
    simp [Generator.primed, hmode]
  · exact hp

theorem startPrimed_gen (k : Client) (s : State) (m : Mode) (epoch : Epoch) :
    ∃ l : List SlotNo,
      ((dropStale epoch (begin (startRequested k s m epoch))).update beginPriming).st.gen =
        { s.gen with
          run := .priming, mode := m, startEpoch := epoch, issuer := some k, line := 0,
          window := .shut, primeList := l, primesOutstanding := (dropStale epoch
            (begin (startRequested k s m epoch))).st.primeSlots.length } := by
  obtain ⟨l, -, hl⟩ := beginPriming_gen (dropStale epoch (begin (startRequested k s m epoch))).st
  rw [dropStale_gen] at hl
  exact ⟨l, hl⟩

theorem stopSchedule_genOk (k : Client) (o : StopOption) {s : State} (h : GenOk s.gen) :
    GenOk (stopSchedule k o s).gen := by
  unfold stopSchedule
  split
  · rename_i hr
    exact ⟨h.geometry, h.line, fun _ => h.primes (by simp [hr]), fun _ hne => absurd rfl hne,
      nofun, nofun⟩
  · exact h
  · simp only [setIssuer_gen, enterStopped_gen, abandonPrimes_gen]
    exact genOk_stoppedBy h
  · simp only [setIssuer_gen, enterStopped_gen]
    exact genOk_stoppedBy h

/-! ### Every command keeps the generator's law -/

theorem effect_genOk {i : Instr} {s t : State} (e : Effect s i t) (h : GenOk s.gen) :
    GenOk t.gen := by
  cases e with
  | writeNow => simpa using h
  | setGeometry hrun hok =>
    obtain ⟨hline, -, -⟩ := h.quiet (by rw [hrun]; rfl)
    refine { h with geometry := hok, line := ?_ }
    simp only [geometryOk, Bool.and_eq_true, decide_eq_true_eq] at hok
    simp only [State.setGen_gen, hline]
    omega
  | start hrun _ hw _ =>
    subst hw
    obtain ⟨l, hl⟩ := startPrimed_gen _ s _ _
    rw [hl]
    exact genOk_priming h hrun l _ _ _ _
  | startAtOnce hrun _ hw _ =>
    subst hw
    obtain ⟨l, hl⟩ := startPrimed_gen _ s _ _
    refine endPriming_genOk ?_ (congrArg Generator.run hl)
    rw [hl]
    exact genOk_priming h hrun l _ _ _ _
  | stop => exact stopSchedule_genOk _ _ h
  | resetSchedule => simpa using genOk_stoppedBy h
  | readDevice => simpa using h
  | detach =>
    obtain ⟨l, hl, e⟩ := detachClient_gen _ s
    rw [e]
    exact genOk_place h hl
  | _ => exact h

theorem tickLease_gen (w : Work) (k : Client) : (tickLease w k).st.gen = w.st.gen := by
  obtain ⟨-, e⟩ | ⟨v, rfl, ⟨-, e⟩ | ⟨-, e⟩⟩ := tickLease_cases w k
  · rw [e]
  · rw [e]
    unfold lapse abortForLapse
    dsimp only
    split <;> split <;> rfl
  · rw [e]; rfl

theorem tick_gen (held0 held1 : Bool) (s : State) : (tick held0 held1 s).gen = s.gen := by
  simp only [tick, State.setEngine_gen, finish_gen]
  exact foldl_work_same _ State.gen tickLease_gen _ _

theorem startTransfer_gen (b : BusNo) (dataLow : Bool) (s : State) :
    (startTransfer b dataLow s).gen = s.gen := by
  unfold startTransfer
  split
  · rfl
  · simp

theorem reset_genOk : GenOk State.reset.gen :=
  ⟨by decide, by decide, fun _ => ⟨rfl, rfl⟩, fun _ _ => rfl, fun _ => ⟨rfl, rfl, rfl⟩, nofun⟩

theorem generator_eventLaw : EventLaw (fun s => GenOk s.gen) where
  tick s held0 held1 h := by rwa [tick_gen]
  lapse s k h := by rwa [tickLease_gen]
  line _ h := advanceLine_genOk h
  windowOpen _ hdue h := genOk_window h (by simp_all [Generator.openDue]) _
  windowClose _ hdue h := genOk_window h (by simp_all [Generator.closeDue]) _
  epochEnd _ _ h := endEpoch_genOk h
  trigger _ h := takeTrigger_genOk h
  transferStart s b dataLow _ h := by rwa [startTransfer_gen]
  nack _ _ _ _ _ _ h := retryOrFail_genOk _ _ _ _ h
  transferEnd _ _ _ _ _ h := endTransfer_genOk _ _ _ _ _ h
  stretch _ _ _ _ h := exceedStretch_genOk _ _ h
  recovery _ _ _ _ _ _ h := endRecovery_genOk _ _ _ _ h
  stretchEnd _ _ h := h

theorem generator_tableLaw : TableLaw (fun s => GenOk s.gen) where
  host _ _ hs := hs
  phase _ _ hs := hs
  pending _ _ hs := hs
  draws _ _ hs := hs
  lease _ _ hs := hs
  offer _ _ hs := hs

/-- R86 to R103: every step keeps the generator's fields in line with its run state. -/
theorem generatorWithinRules_kept : KeptByEveryStep GeneratorWithinRules := by
  have h := keptByEveryStep_of_effects generator_tableLaw generator_eventLaw effect_genOk reset_genOk
  intro s t hs ht
  rw [generatorWithinRules_iff] at hs ⊢
  exact h s t hs ht

end Sys2Proof.Schedule
end


section
/-! PROOFS. The timing outputs after each operation of the schedule, their law, and with it O54. -/

set_option Elab.async false

namespace Sys2Proof.Schedule

open Sys2Proof Sys2Proof.Machine Sys2Proof.Commands Sys2Proof.Rules Sys2Proof.Effects

/-! ### One output after each operation -/

@[simp] theorem outputsInactive_output (s : State) (k : Fin 12) :
    (outputsInactive s).output k = (s.output k).inactive := Vector.getElem_map ..

@[simp] theorem outputsAtLine_output (s : State) (k : Fin 12) :
    (outputsAtLine s).output k = (s.output k).atLine s.gen.vspan s.gen.line := Vector.getElem_map ..

theorem foldl_modifyAt_get {α : Type} {n : Nat} (f : Fin n → α → α) (j : Fin n) :
    ∀ (l : List (Fin n)) (v : Vector α n), l.Nodup →
      (l.foldl (fun v k => modifyAt v k (f k)) v)[j.val] =
        if j ∈ l then f j v[j.val] else v[j.val]
  | [], v, _ => by simp
  | k :: l, v, hl => by
    obtain ⟨hk, hl⟩ := List.nodup_cons.mp hl
    rw [List.foldl_cons, foldl_modifyAt_get f j l _ hl]
    by_cases hjk : k = j
    · subst hjk; simp [hk]
    · rw [modifyAt_get_ne v k j _ hjk]
      simp [Ne.symm hjk]

theorem mem_allOutputs (k : Fin 12) : k ∈ allOutputs := by
  revert k; decide

/-- R143: every output takes its program. -/
@[simp] theorem takePrograms_output (s : State) (k : Fin 12) : (takePrograms s).output k =
    (s.output k).takeProgram (s.liveProgram k) s.gen.c s.gen.vspan := by
  have h := foldl_modifyAt_get
    (fun k o => o.takeProgram (s.liveProgram k) s.gen.c s.gen.vspan) k allOutputs s.outputs
    (by decide)
  rw [if_pos (mem_allOutputs k)] at h
  unfold takePrograms State.output
  exact h

theorem output_of_outputs {s t : State} (h : t.outputs = s.outputs) (k : Fin 12) :
    t.output k = s.output k := by
  rw [State.output, State.output, h]

theorem takeProgram_high (o : TimingOutput) (p : Program) (c : Epoch) (vspan : Nat) :
    (o.takeProgram p c vspan).high =
      pinLevel (o.takeProgram p c vspan).program.polarity (o.takeProgram p c vspan).active := rfl

/-- The outputs of a boundary are those that take their programs there. -/
theorem boundary_output (w : Work) (k : Fin 12) :
    ∃ s : State, s.gen = w.st.gen ∧ s.outputs = w.st.outputs ∧
      s = (releaseDue { w with out := [] }).st ∧ (boundary w).st.output k =
        (s.output k).takeProgram (s.liveProgram k) w.st.gen.c w.st.gen.vspan := by
  refine ⟨_, releaseDue_gen { w with out := [] }, releaseDue_outputs _, rfl, ?_⟩
  have h : (boundary w).st.outputs = (takePrograms (releaseDue { w with out := [] }).st).outputs :=
    advanceMarks_outputs _
  rw [output_of_outputs h, takePrograms_output, releaseDue_gen]

/-! ### The law of the outputs -/

theorem outputsWithinRules_of_eq {s t : State} (hrun : t.gen.run = s.gen.run)
    (hout : t.outputs = s.outputs) (h : OutputsWithinRules s) : OutputsWithinRules t := by
  simp only [OutputsWithinRules, output_of_outputs hout, hrun]
  exact h

/-- R149: outputs that have gone inactive are within their rules in any run state. -/
theorem outputsWithinRules_of_inactive {s t : State} (h : t.outputs = (outputsInactive s).outputs) :
    OutputsWithinRules t := by
  simp only [OutputsWithinRules, output_of_outputs h, outputsInactive_output]
  exact ⟨fun _ k => ⟨rfl, rfl⟩, fun k => rfl⟩

theorem enterStopped_outputsOk (s : State) : OutputsWithinRules (enterStopped s) :=
  outputsWithinRules_of_inactive rfl

theorem waitForTrigger_outputsOk (s : State) : OutputsWithinRules (waitForTrigger s) :=
  outputsWithinRules_of_inactive rfl

/-- R143, R147: at a boundary that begins an epoch every output takes its program's level. -/
theorem boundary_outputsOk {w : Work} (hrun : w.st.gen.run.inEpoch = true) :
    OutputsWithinRules (boundary w).st := by
  refine ⟨fun hout => ?_, fun k => ?_⟩
  · rw [boundary_gen, hrun] at hout
    cases hout
  · obtain ⟨s, -, -, -, h⟩ := boundary_output w k
    rw [h, takeProgram_high]

theorem startEpochNow_outputsOk (c : Epoch) (w : Work) :
    OutputsWithinRules (startEpochNow c w).st := boundary_outputsOk rfl

theorem reportPrimed_outputsOk {w : Work} (h : OutputsWithinRules w.st) :
    OutputsWithinRules (reportPrimed w).st := by
  refine outputsWithinRules_of_eq ?_ ?_ h <;> simp

theorem beginFirstEpoch_outputsOk (w : Work) : OutputsWithinRules (beginFirstEpoch w).st :=
  reportPrimed_outputsOk (startEpochNow_outputsOk _ _)

theorem closePriming_outputsOk {w : Work} (h : OutputsWithinRules w.st) :
    OutputsWithinRules (closePriming w).st := by
  obtain ⟨v, rfl, ⟨-, e⟩ | ⟨-, e⟩⟩ := closePriming_cases w <;> rw [e]
  · refine outputsWithinRules_of_eq ?_ ?_ h <;> simp
  · exact reportPrimed_outputsOk (waitForTrigger_outputsOk _)

theorem countPrime_outputsOk {w : Work} (h : OutputsWithinRules w.st) :
    OutputsWithinRules (countPrime w).st := by
  obtain ⟨v, rfl, ⟨-, e⟩ | ⟨-, e⟩⟩ := countPrime_cases w <;> rw [e]
  · exact closePriming_outputsOk h
  · exact h

theorem failPriming_st (i : SlotNo) (w : Work) :
    (failPriming i w).st = setIssuer none (enterStopped (abandonPrimes w.st)) := by
  unfold failPriming
  dsimp only
  split <;> simp

theorem failPriming_outputsOk (i : SlotNo) (w : Work) : OutputsWithinRules (failPriming i w).st := by
  rw [failPriming_st]
  exact enterStopped_outputsOk (abandonPrimes w.st)

theorem endPrime_outputsOk (e : Entry) (done : Bool) {w : Work} (h : OutputsWithinRules w.st) :
    OutputsWithinRules (endPrime e done w).st := by
  have hslot : OutputsWithinRules (w.update (completeSlot e done)).st := by
    refine outputsWithinRules_of_eq ?_ ?_ h <;> simp
  unfold endPrime
  dsimp only
  split
  · split
    · split
      · exact hslot
      · exact countPrime_outputsOk hslot
    · split
      · exact failPriming_outputsOk _ _
      · exact hslot
  · exact hslot

theorem handOn_outputsOk (e : Entry) (done : Bool) (bytes : List Byte) {w : Work}
    (h : OutputsWithinRules w.st) : OutputsWithinRules (handOn e done bytes w).st := by
  unfold handOn
  split
  · refine outputsWithinRules_of_eq ?_ ?_ h <;> simp
  · refine outputsWithinRules_of_eq ?_ ?_ h <;> simp
  · exact endPrime_outputsOk e done h
  · refine outputsWithinRules_of_eq ?_ ?_ h <;> simp

theorem fillPlaces_run (b : BusNo) (s : State) : (fillPlaces b s).gen.run = s.gen.run := by
  obtain ⟨l, -, h⟩ := fillPlaces_gen b s
  rw [h]

theorem endEntries_outputsOk (b : BusNo) (done : Bool) (bytes : List Byte) (n : Nat) {w : Work}
    (h : OutputsWithinRules w.st) : OutputsWithinRules (endEntries b done bytes n w).st := by
  induction n generalizing w with
  | zero => exact h
  | succ n ih =>
    cases hq : w.st.queue b with
    | nil => simpa only [endEntries, hq] using h
    | cons e rest =>
      rw [endEntries_cons b done bytes n w e rest hq]
      refine ih (outputsWithinRules_of_eq (fillPlaces_run b _) (fillPlaces_outputs b _) ?_)
      exact handOn_outputsOk e done bytes h

theorem endTransfer_outputsOk (b : BusNo) (done : Bool) (bytes : List Byte) (next : EngineState)
    {w : Work} (h : OutputsWithinRules w.st) :
    OutputsWithinRules (endTransfer b done bytes next w).st := by
  obtain ⟨v, rfl, ⟨-, -, -, -, e⟩ | ⟨-, e⟩⟩ := endTransfer_cases b done bytes next w <;> rw [e]
  · exact beginFirstEpoch_outputsOk _
  · exact endEntries_outputsOk b done bytes _ h

theorem retryOrFail_outputsOk (b : BusNo) (t : Transfer) (dataLow : Bool) {w : Work}
    (h : OutputsWithinRules w.st) : OutputsWithinRules (retryOrFail b t dataLow w).st := by
  unfold retryOrFail
  split
  · refine outputsWithinRules_of_eq ?_ ?_ h <;> simp
  · exact endTransfer_outputsOk _ _ _ _ h

theorem enterFault_outputsOk (b : BusNo) {w : Work} (h : OutputsWithinRules w.st) :
    OutputsWithinRules (enterFault b w).st := by
  unfold enterFault
  dsimp only
  split
  · simp only [Work.update_st, reportBus_st]
    exact endTransfer_outputsOk b false [] .fault h
  · simp only [Work.update_st, reportBus_st]
    exact h

theorem settleWindow_outputsOk {s : State} (h : OutputsWithinRules s) :
    OutputsWithinRules (settleWindow s) :=
  outputsWithinRules_of_eq (settleWindow_run s) (settleWindow_outputs s) h

theorem endEpoch_outputsOk {s : State} (h : OutputsWithinRules s) :
    OutputsWithinRules (endEpoch s).st := by
  have hs := settleWindow_outputsOk h
  unfold endEpoch
  dsimp only
  generalize settleWindow s = u at hs ⊢
  split
  · split
    · exact startEpochNow_outputsOk _ _
    · split
      · exact startEpochNow_outputsOk _ _
      · exact waitForTrigger_outputsOk u
  · simp only [completeStop, Work.update_st, reportSchedule_st]
    exact enterStopped_outputsOk u
  all_goals exact hs

theorem takeTrigger_outputsOk {s : State} (h : OutputsWithinRules s) :
    OutputsWithinRules (takeTrigger s).st := by
  unfold takeTrigger
  split
  · exact startEpochNow_outputsOk _ _
  · split
    · simp only [offerWhere_st, begin_st]; exact h
    · exact h
  · exact h

theorem advanceLine_outputsOk {s : State} (h : OutputsWithinRules s) :
    OutputsWithinRules (advanceLine s) := by
  unfold advanceLine
  split
  · rename_i hgo
    have hrun : (settleWindow s).gen.run.inEpoch = true := by
      rw [settleWindow_run]; exact (Bool.and_eq_true_iff.mp hgo).1
    refine ⟨fun hout => ?_, fun k => ?_⟩
    · rw [outputsAtLine_gen] at hout
      exact absurd hrun (Bool.eq_false_iff.mp hout)
    · rw [outputsAtLine_output]; rfl
  · exact h

theorem startTransfer_outputs (b : BusNo) (dataLow : Bool) (s : State) :
    (startTransfer b dataLow s).outputs = s.outputs := by
  unfold startTransfer
  split
  · rfl
  · simp

theorem tickLease_outputs (w : Work) (k : Client) : (tickLease w k).st.outputs = w.st.outputs := by
  obtain ⟨-, e⟩ | ⟨v, rfl, ⟨-, e⟩ | ⟨-, e⟩⟩ := tickLease_cases w k
  · rw [e]
  · rw [e]
    unfold lapse abortForLapse
    dsimp only
    split <;> split <;> rfl
  · rw [e]; rfl

theorem tick_outputs (held0 held1 : Bool) (s : State) :
    (tick held0 held1 s).outputs = s.outputs := by
  simp only [tick, State.setEngine_outputs, finish_outputs]
  exact foldl_work_same _ State.outputs tickLease_outputs _ _

theorem exceedStretch_outputsOk (b : BusNo) (passed : Nat) {s : State} (h : OutputsWithinRules s) :
    OutputsWithinRules (exceedStretch b passed s).st := by
  unfold exceedStretch
  split
  · refine outputsWithinRules_of_eq ?_ ?_ h <;> simp
  · exact enterFault_outputsOk b h
  · exact h

theorem endRecovery_outputsOk (b : BusNo) (lowLooks : Nat) (freed dataLow : Bool) {s : State}
    (h : OutputsWithinRules s) : OutputsWithinRules (endRecovery b lowLooks freed dataLow s).st := by
  unfold endRecovery
  dsimp only
  split
  · split
    · exact retryOrFail_outputsOk _ _ _ h
    · simp only [recovered, Work.update_st, reportBus_st]; exact h
  · exact enterFault_outputsOk b h

/-! ### START and STOP -/

theorem beginPriming_outputs (s : State) : (beginPriming s).outputs = (outputsInactive s).outputs :=
  placePrimes_outputs _

theorem endPriming_outputsOk {w : Work} (h : OutputsWithinRules w.st) :
    OutputsWithinRules (endPriming w).st := by
  have hc := closePriming_outputsOk h
  unfold endPriming
  dsimp only
  split
  · exact beginFirstEpoch_outputsOk _
  · exact hc

theorem stopSchedule_outputsOk (k : Client) (o : StopOption) {s : State}
    (h : OutputsWithinRules s) : OutputsWithinRules (stopSchedule k o s) := by
  unfold stopSchedule
  split
  · rename_i hrun
    refine ⟨nofun, h.2⟩
  · exact h
  · exact enterStopped_outputsOk _
  · exact enterStopped_outputsOk _

theorem detachClient_outputs (k : Client) (s : State) : (detachClient k s).outputs = s.outputs := by
  rw [detachClient_eq, State.setEventQueue_outputs, detachTables, detachQueue_outputs,
    detachQueue_outputs]
  unfold detachBatch detachClaims
  dsimp only
  split <;> split <;> rfl

/-! ### Every command keeps the outputs' law -/

theorem effect_outputsOk {i : Instr} {s t : State} (e : Effect s i t) (h : OutputsWithinRules s) :
    OutputsWithinRules t := by
  cases e with
  | writeNow => refine outputsWithinRules_of_eq ?_ ?_ h <;> simp
  | start _ _ hw _ => subst hw; exact outputsWithinRules_of_inactive (beginPriming_outputs _)
  | startAtOnce _ _ hw _ =>
    subst hw
    exact endPriming_outputsOk (outputsWithinRules_of_inactive (beginPriming_outputs _))
  | stop => exact stopSchedule_outputsOk _ _ h
  | resetSchedule =>
    refine outputsWithinRules_of_eq ?_ ?_ (enterStopped_outputsOk s) <;> simp
  | readDevice => refine outputsWithinRules_of_eq ?_ ?_ h <;> simp
  | detach =>
    obtain ⟨l, -, hgen⟩ := detachClient_gen _ s
    exact outputsWithinRules_of_eq (by rw [hgen]) (detachClient_outputs _ s) h
  | _ => exact h

theorem reset_outputsOk : OutputsWithinRules State.reset := by
  have h : ∀ k : Fin 12, State.reset.output k = TimingOutput.reset := fun k =>
    Vector.getElem_replicate ..
  simp only [OutputsWithinRules, h]
  exact ⟨fun _ _ => ⟨rfl, rfl⟩, fun _ => rfl⟩

theorem outputs_eventLaw : EventLaw OutputsWithinRules where
  tick s held0 held1 h := outputsWithinRules_of_eq (by rw [tick_gen]) (tick_outputs ..) h
  lapse s k h := outputsWithinRules_of_eq (by rw [tickLease_gen, begin_st]) (tickLease_outputs ..) h
  line _ h := advanceLine_outputsOk h
  windowOpen _ _ h := h
  windowClose _ _ h := h
  epochEnd _ _ h := endEpoch_outputsOk h
  trigger _ h := takeTrigger_outputsOk h
  transferStart s b dataLow _ h :=
    outputsWithinRules_of_eq (by rw [startTransfer_gen]) (startTransfer_outputs ..) h
  nack _ _ _ _ _ _ h := retryOrFail_outputsOk _ _ _ h
  transferEnd _ _ _ _ _ h := endTransfer_outputsOk _ _ _ _ h
  stretch _ _ _ _ h := exceedStretch_outputsOk _ _ h
  recovery _ _ _ _ _ _ h := endRecovery_outputsOk _ _ _ _ h
  stretchEnd _ _ h := h

theorem outputs_tableLaw : TableLaw OutputsWithinRules where
  host _ _ hs := hs
  phase _ _ hs := hs
  pending _ _ hs := hs
  draws _ _ hs := hs
  lease _ _ hs := hs
  offer _ _ hs := hs

/-- Settles O54: the generator's law by what each operation makes of its fields, the outputs' law by
the operations that send the outputs inactive or give them their level. -/
theorem everyStepKeepsTheSchedule : Obligations.EveryStepKeepsTheSchedule :=
  ⟨generatorWithinRules_kept,
    keptByEveryStep_of_effects outputs_tableLaw outputs_eventLaw effect_outputsOk reset_outputsOk⟩

end Sys2Proof.Schedule
end


section
/-! PROOFS. How a law of the tables is carried through the composite operations: from what single
operations keep, to the events and to the requests that act on the schedule. -/

set_option Elab.async false

namespace Sys2Proof.Carrying

open Sys2Proof Sys2Proof.Machine Sys2Proof.Commands Sys2Proof.Rules Sys2Proof.Effects
open Sys2Proof.Schedule

/-- What every operation but SET_GEOMETRY and the building of the prime list does to the generator:
slots only leave the prime list, which is empty where priming is left, and the geometry stays. -/
structure GenMove (g g' : Generator) : Prop where
  primes : g'.primeList.Sublist g.primeList
  run : g'.run = .priming ∨ g'.run = g.run ∨ g'.primeList = [] ∨ g.run ≠ .priming
  geometry : g'.lspan = g.lspan ∧ g'.vspan = g.vspan ∧ g'.wopen = g.wopen ∧
    g'.wclose = g.wclose ∧ g'.edge = g.edge

theorem genMove_emptied {g g' : Generator} (h : g'.primeList = [])
    (hgeo : g'.lspan = g.lspan ∧ g'.vspan = g.vspan ∧ g'.wopen = g.wopen ∧
      g'.wclose = g.wclose ∧ g'.edge = g.edge) : GenMove g g' :=
  ⟨h ▸ List.nil_sublist _, .inr (.inr (.inl h)), hgeo⟩

/-- A move that leaves the prime list leaves priming only with that list empty. -/
theorem genMove_sameList {g g' : Generator} (h : g'.primeList = g.primeList)
    (hlist : g.run = .priming → g.primeList = [])
    (hgeo : g'.lspan = g.lspan ∧ g'.vspan = g.vspan ∧ g'.wopen = g.wopen ∧
      g'.wclose = g.wclose ∧ g'.edge = g.edge) : GenMove g g' := by
  refine ⟨h ▸ List.Sublist.refl _, ?_, hgeo⟩
  by_cases hr : g.run = .priming
  · exact .inr (.inr (.inl (h.trans (hlist hr))))
  · exact .inr (.inr (.inr hr))

theorem genMove_sameRun {g g' : Generator} (h : g'.primeList.Sublist g.primeList)
    (hrun : g'.run = g.run) (hgeo : g'.lspan = g.lspan ∧ g'.vspan = g.vspan ∧
      g'.wopen = g.wopen ∧ g'.wclose = g.wclose ∧ g'.edge = g.edge) : GenMove g g' :=
  ⟨h, .inr (.inl hrun), hgeo⟩

/-! ### Operations on one state -/

/-- A table law that the operations keep which do not end in the filling of a place. -/
structure WorkLaw (P : State → Prop) : Prop extends TableLaw P where
  resolve : ∀ (r : BatchRef) (position : Nat) (o : RecordOutcome) (w : Work), P w.st →
    P (resolve r position o w).st
  gen : ∀ (s : State) (g : Generator), GenMove s.gen g → P s → P (s.setGen g)
  outputs : ∀ (s : State) (v : Vector TimingOutput 12),
    (∀ k : Fin 12, v[k.val].program = (s.output k).program) → P s → P { s with outputs := v }
  marks : ∀ s : State, P s → P (advanceMarks s)
  probes : ∀ (s : State) (k : Client) (n : Nat), P s → P (s.setProbes k n)
  late : ∀ (s : State) (d : Epoch), P s → P (markQueuesLate d s)
  abandon : ∀ s : State, P s → P (abandonPrimes s)

namespace WorkLaw

variable {P : State → Prop} (W : WorkLaw P)
include W

theorem outputsInactive {s : State} (h : P s) : P (outputsInactive s) :=
  W.outputs _ _ (fun k => (congrArg TimingOutput.program (outputsInactive_output s k)).trans rfl) h

theorem outputsAtLine {s : State} (h : P s) : P (outputsAtLine s) :=
  W.outputs _ _ (fun k => (congrArg TimingOutput.program (outputsAtLine_output s k)).trans rfl) h

theorem dropStale (start : Epoch) {w : Work} (h : P w.st) : P (dropStale start w).st := by
  unfold Machine.dropStale
  exact foldl_keeps (fun w : Work => P w.st)
    (fun w (x : PendingRecord) => Machine.resolve x.batch x.position .dropped w)
    (fun w x => W.resolve x.batch x.position .dropped w) _ w h

theorem setIssuer (k : Option Client) {s : State} (h : P s) : P (setIssuer k s) :=
  W.gen _ _ (genMove_sameRun (.refl _) rfl ⟨rfl, rfl, rfl, rfl, rfl⟩) h

theorem clearPrimes {s : State} (h : P s) : P (clearPrimes s) :=
  W.gen _ _ (genMove_emptied rfl ⟨rfl, rfl, rfl, rfl, rfl⟩) h

theorem enterStopped {s : State} (h : P s) : P (enterStopped s) := by
  unfold Machine.enterStopped
  refine W.outputsInactive (W.gen _ _ (genMove_emptied rfl ⟨rfl, rfl, rfl, rfl, rfl⟩) ?_)
  split
  · exact W.late _ _ h
  · exact h

theorem waitForTrigger {s : State} (hlist : s.gen.run = .priming → s.gen.primeList = [])
    (h : P s) : P (waitForTrigger s) :=
  W.outputsInactive (W.gen _ _ (genMove_sameList rfl hlist ⟨rfl, rfl, rfl, rfl, rfl⟩) h)

theorem reportPrimed {w : Work} (h : P w.st) : P (reportPrimed w).st := by
  unfold Machine.reportPrimed
  refine W.setIssuer none ?_
  rwa [reportSchedule_st]

theorem closePriming {w : Work} (h : P w.st) : P (closePriming w).st := by
  have hclear := W.clearPrimes (W.dropStale w.st.gen.startEpoch h)
  obtain ⟨v, rfl, ⟨-, e⟩ | ⟨-, e⟩⟩ := closePriming_cases w <;> rw [e]
  · exact hclear
  · refine W.reportPrimed (W.waitForTrigger (fun _ => rfl) ?_)
    exact W.gen _ _ (genMove_sameRun (.refl _) rfl ⟨rfl, rfl, rfl, rfl, rfl⟩) hclear

theorem countPrime {w : Work} (h : P w.st) : P (countPrime w).st := by
  have hcount : P (w.st.setGen
      { w.st.gen with primesOutstanding := w.st.gen.primesOutstanding - 1 }) :=
    W.gen _ _ (genMove_sameRun (.refl _) rfl ⟨rfl, rfl, rfl, rfl, rfl⟩) h
  obtain ⟨v, rfl, ⟨-, e⟩ | ⟨-, e⟩⟩ := countPrime_cases w <;> rw [e]
  · exact W.closePriming hcount
  · exact hcount

theorem failPriming (i : SlotNo) {w : Work} (h : P w.st) : P (failPriming i w).st := by
  rw [failPriming_st]
  exact W.setIssuer none (W.enterStopped (W.abandon _ h))

theorem endPrime (e : Entry) (done : Bool) {w : Work} (h : P (completeSlot e done w.st)) :
    P (endPrime e done w).st := by
  unfold Machine.endPrime
  dsimp only
  split
  · split
    · split
      · exact h
      · exact W.countPrime h
    · split
      · exact W.failPriming _ h
      · exact h
  · exact h

theorem endWrite (e : Entry) (done : Bool) {w : Work} (h : P (completeSlot e done w.st)) :
    P (endWrite e done w).st := by
  unfold Machine.endWrite
  dsimp only
  split
  · exact W.resolve _ _ _ _ h
  · exact h

omit W in
theorem endNow (e : Entry) (done : Bool) {w : Work} (h : P (completeSlot e done w.st)) :
    P (endNow e done w).st := by
  unfold Machine.endNow
  dsimp only
  split
  · split <;> exact h
  · exact h

theorem endProbe (e : Entry) (done : Bool) (bytes : List Byte) {w : Work} (h : P w.st) :
    P (endProbe e done bytes w).st := by
  unfold Machine.endProbe
  dsimp only
  split
  · split
    · exact W.probes _ _ _ h
    · split <;> exact W.probes _ _ _ h
  · exact h

/-- R119 step 2: a result is handed on where the slot's update, or for a probe the state as it stands,
is within the law. -/
theorem handOn (e : Entry) (done : Bool) (bytes : List Byte) {w : Work}
    (hslot : e.kind ≠ .probe → P (completeSlot e done w.st)) (hprobe : e.kind = .probe → P w.st) :
    P (handOn e done bytes w).st := by
  unfold Machine.handOn
  split
  · exact W.endWrite e done (hslot (by simp [*]))
  · exact endNow e done (hslot (by simp [*]))
  · exact W.endPrime e done (hslot (by simp [*]))
  · exact W.endProbe e done bytes (hprobe ‹_›)

theorem handWindowOpen {s : State} (h : P s) : P (handWindowOpen s) :=
  W.gen _ _ (genMove_sameRun (.refl _) rfl ⟨rfl, rfl, rfl, rfl, rfl⟩) h

theorem handWindowClose {s : State} (h : P s) : P (handWindowClose s) :=
  W.late _ _ (W.gen _ _ (genMove_sameRun (.refl _) rfl ⟨rfl, rfl, rfl, rfl, rfl⟩) h)

theorem settleWindow {s : State} (h : P s) : P (settleWindow s) :=
  have ho := ite_keeps (c := s.gen.openDue = true) (fun _ => W.handWindowOpen h) h
  ite_keeps (fun _ => W.handWindowClose ho) ho

theorem advanceLine {s : State} (h : P s) : P (advanceLine s) := by
  refine ite_keeps (fun _ => ?_) h
  exact W.outputsAtLine (W.gen _ _ (genMove_sameRun (.refl _) rfl ⟨rfl, rfl, rfl, rfl, rfl⟩)
    (W.settleWindow h))

end WorkLaw

/-! ### Operations on the schedule -/

/-- A law that the boundary and the placement of primes keep too. -/
structure ScheduleLaw (P : State → Prop) : Prop extends WorkLaw P where
  boundary : ∀ w : Work, P w.st → P (boundary w).st
  place : ∀ s : State, P s → P (placePrimes s)
  primes : ∀ s : State, s.gen.run = .priming → P s → P (s.setGen
    { s.gen with primeList := s.primeSlots, primesOutstanding := s.primeSlots.length })

namespace ScheduleLaw

variable {P : State → Prop} (S : ScheduleLaw P)
include S

theorem startEpochNow (c : Epoch) {w : Work}
    (hlist : w.st.gen.run = .priming → w.st.gen.primeList = []) (h : P w.st) :
    P (startEpochNow c w).st :=
  S.boundary _ (S.gen _ _ (genMove_sameList rfl hlist ⟨rfl, rfl, rfl, rfl, rfl⟩) h)

theorem beginFirstEpoch {w : Work} (hlist : w.st.gen.run = .priming → w.st.gen.primeList = [])
    (h : P w.st) : P (beginFirstEpoch w).st :=
  S.reportPrimed (S.startEpochNow _ hlist h)

theorem endEpoch {s : State} (h : P s) : P (endEpoch s).st := by
  have hs := S.settleWindow h
  unfold Machine.endEpoch
  dsimp only
  generalize settleWindow s = u at hs ⊢
  split
  · rename_i hrun
    have hlist : ∀ v : State, v.gen.run = u.gen.run → v.gen.run = .priming →
        v.gen.primeList = [] := by
      intro v hv hp
      rw [hv, hrun] at hp
      cases hp
    split
    · exact S.startEpochNow _ (hlist u rfl) hs
    · split
      · refine S.startEpochNow _ (hlist _ rfl) ?_
        exact S.gen _ _ (genMove_sameRun (.refl _) rfl ⟨rfl, rfl, rfl, rfl, rfl⟩) hs
      · exact S.waitForTrigger (hlist u rfl) hs
  · unfold completeStop
    refine S.setIssuer none ?_
    rw [reportSchedule_st]
    exact S.enterStopped hs
  all_goals exact hs

theorem takeTrigger {s : State} (h : P s) : P (takeTrigger s).st := by
  have hgen : ∀ g : Generator, g.primeList = s.gen.primeList → g.run = s.gen.run →
      (g.lspan = s.gen.lspan ∧ g.vspan = s.gen.vspan ∧ g.wopen = s.gen.wopen ∧
        g.wclose = s.gen.wclose ∧ g.edge = s.gen.edge) → P (s.setGen g) := fun g hl hr hg =>
    S.gen _ _ (genMove_sameRun (hl ▸ .refl _) hr hg) h
  unfold Machine.takeTrigger
  split
  · rename_i hrun
    refine S.startEpochNow _ (fun hp => ?_) h
    rw [begin_st, hrun] at hp
    cases hp
  · split
    · rw [offerWhere_st]; exact hgen _ rfl rfl ⟨rfl, rfl, rfl, rfl, rfl⟩
    · exact hgen _ rfl rfl ⟨rfl, rfl, rfl, rfl, rfl⟩
  · exact h

theorem startPrimed (k : Client) (m : Mode) (epoch : Epoch) {s : State} (h : P s) :
    P ((dropStale epoch (begin (startRequested k s m epoch))).update beginPriming).st := by
  refine S.place _ (S.primes _ rfl (S.outputsInactive (S.gen _ _ ?_
    (S.dropStale epoch ?_))))
  · exact ⟨.refl _, .inl rfl, rfl, rfl, rfl, rfl, rfl⟩
  · exact S.gen _ _ (genMove_sameRun (.refl _) rfl ⟨rfl, rfl, rfl, rfl, rfl⟩) h

theorem endPriming {w : Work} (h : P w.st) : P (endPriming w).st := by
  have hc := S.closePriming h
  unfold Machine.endPriming
  dsimp only
  split
  · refine S.beginFirstEpoch (fun _ => ?_) hc
    rw [closePriming_gen, Generator.primed]
    split <;> rfl
  · exact hc

theorem stopSchedule (k : Client) (o : StopOption) {s : State} (h : P s) :
    P (stopSchedule k o s) := by
  unfold Machine.stopSchedule
  split
  · rename_i hrun
    refine S.gen _ _ (genMove_sameList rfl (fun hp => ?_) ⟨rfl, rfl, rfl, rfl, rfl⟩) h
    rw [hrun] at hp
    cases hp
  · exact h
  · exact S.setIssuer none (S.enterStopped (S.abandon _ h))
  · exact S.setIssuer none (S.enterStopped h)

/-- Where the entries have left within the law, so ends the transfer: epoch S begins when priming is
over, with nothing left on the prime list. -/
theorem endTransfer_of_entries {b : BusNo} {done : Bool} {bytes : List Byte} {next : EngineState}
    {w : Work} (h : P (endEntries b done bytes (carriedCount (w.st.queue b))
      (w.update (freeEngine b next))).st) : P (endTransfer b done bytes next w).st := by
  obtain ⟨v, rfl, ⟨hrun, hsome, -, hnone, e⟩ | ⟨-, e⟩⟩ := endTransfer_cases b done bytes next w <;>
    rw [e]
  · refine S.beginFirstEpoch (fun hrun' => ?_) h
    have hleft := primesLeft_moves
      (endEntries_gen b done bytes (carriedCount (w.st.queue b)) (w.update (freeEngine b next)))
      (fun _ => .inl hsome) hrun'
    exact hleft.resolve_left (by omega)
  · exact h

end ScheduleLaw

/-! ### Operations with the filling of places -/

/-- A law `P` that every composite operation keeps. Between the moment an entry leaves bus `b`'s queue
and the filling of its place it may hold as `Q b` alone. -/
structure OpLaw (P : State → Prop) (Q : BusNo → State → Prop) : Prop where
  work : WorkLaw P
  between : ∀ b, WorkLaw (Q b)
  pop : ∀ (s : State) (b : BusNo) (e : Entry) (rest : List Entry), s.queue b = e :: rest → P s →
    Q b (s.setQueue b rest)
  complete : ∀ (s : State) (b : BusNo) (e : Entry) (rest : List Entry) (done : Bool),
    s.queue b = e :: rest → P s → Q b (completeSlot e done (s.setQueue b rest))
  fill : ∀ (b : BusNo) (s : State), Q b s → P (fillPlaces b s)
  place : ∀ s : State, P s → P (placePrimes s)
  primes : ∀ s : State, s.gen.run = .priming → P s → P (s.setGen
    { s.gen with primeList := s.primeSlots, primesOutstanding := s.primeSlots.length })
  boundary : ∀ w : Work, P w.st → P (boundary w).st
  engine : ∀ (s : State) (b : BusNo) (e : Engine), e.speed = (s.engine b).speed → P s →
    P (s.setEngine b e)
  attempts : ∀ (b : BusNo) (s : State), P s → P (noteAttempts b s)
  handOver : ∀ (s : State) (b : BusNo) (n : Nat) (stamp : Option Epoch), P s →
    P (s.setQueue b (handOver n stamp (s.queue b)))
  tickLease : ∀ (w : Work) (k : Client), P w.st → P (tickLease w k).st
  detachQueue : ∀ (k : Client) (s : State) (b : BusNo), P s → P (detachQueue k s b)
  resetTables : ∀ s : State, P s →
    P (resetBatchesAndStore (begin (resetQueueEntries s).draw)).st

/-- On an IDLE or FAULT engine, or one whose limit is exceeded, a tick changes nothing; else it
measures the stretch. -/
theorem tick_speed (e : Engine) (held : Bool) : (e.tick held).speed = e.speed := by
  unfold Engine.tick
  split
  · rfl
  · rfl
  all_goals
    split
    · rfl
    · split <;> rfl

theorem beginAttempt_speed (t : Transfer) (dataLow : Bool) (e : Engine) :
    (beginAttempt t dataLow e).speed = e.speed := by
  unfold beginAttempt
  split <;> rfl

namespace OpLaw

variable {P : State → Prop} {Q : BusNo → State → Prop} (O : OpLaw P Q)
include O

theorem schedule : ScheduleLaw P :=
  { O.work with boundary := O.boundary, place := O.place, primes := O.primes }

/-- R119: the entries of a transfer leave one by one. -/
theorem endEntries (b : BusNo) (done : Bool) (bytes : List Byte) (n : Nat) {w : Work}
    (h : P w.st) : P (endEntries b done bytes n w).st := by
  induction n generalizing w with
  | zero => exact h
  | succ n ih =>
    cases hq : w.st.queue b with
    | nil => simpa only [Machine.endEntries, hq] using h
    | cons e rest =>
      rw [endEntries_cons b done bytes n w e rest hq]
      refine ih (O.fill b _ ((O.between b).handOn e done bytes (fun _ => ?_) (fun _ => ?_)))
      · exact O.complete _ b e rest done hq h
      · exact O.pop _ b e rest hq h

theorem endTransfer (b : BusNo) (done : Bool) (bytes : List Byte) (next : EngineState) {w : Work}
    (h : P w.st) : P (endTransfer b done bytes next w).st := by
  have hend : P (Machine.endEntries b done bytes (carriedCount (w.st.queue b))
      (w.update (freeEngine b next))).st := O.endEntries b done bytes _ (O.engine _ _ _ rfl h)
  exact O.schedule.endTransfer_of_entries hend

theorem retryOrFail (b : BusNo) (t : Transfer) (dataLow : Bool) {w : Work} (h : P w.st) :
    P (retryOrFail b t dataLow w).st := by
  unfold Machine.retryOrFail
  split
  · exact O.attempts _ _ (O.engine _ _ _ (beginAttempt_speed ..) h)
  · exact O.endTransfer b false [] .idle h

theorem enterFault (b : BusNo) {w : Work} (h : P w.st) : P (enterFault b w).st := by
  unfold Machine.enterFault
  dsimp only
  refine O.engine _ _ _ rfl ?_
  rw [reportBus_st]
  split
  · exact O.endTransfer b false [] .fault h
  · exact O.engine _ _ _ rfl h

theorem exceedStretch (b : BusNo) (passed : Nat) {s : State} (h : P s) :
    P (exceedStretch b passed s).st := by
  unfold Machine.exceedStretch
  split
  · exact O.attempts _ _ (O.engine _ _ _ rfl h)
  · exact O.enterFault b (O.engine _ _ _ rfl h)
  · exact h

theorem endRecovery (b : BusNo) (lowLooks : Nat) (freed dataLow : Bool) {s : State} (h : P s) :
    P (endRecovery b lowLooks freed dataLow s).st := by
  unfold Machine.endRecovery
  dsimp only
  split
  · split
    · exact O.retryOrFail b _ dataLow (O.engine _ _ _ rfl h)
    · unfold recovered
      dsimp only
      refine O.engine _ _ _ rfl ?_
      rw [reportBus_st]
      exact O.engine _ _ _ rfl (O.engine _ _ _ rfl h)
  · exact O.enterFault b (O.engine _ _ _ rfl h)

theorem startTransfer (b : BusNo) (dataLow : Bool) {s : State} (h : P s) :
    P (startTransfer b dataLow s) := by
  unfold Machine.startTransfer
  split
  · exact h
  · exact O.attempts _ _ (O.engine _ _ _ (beginAttempt_speed ..) (O.handOver _ _ _ _ h))

theorem tick (held0 held1 : Bool) {s : State} (h : P s) : P (tick held0 held1 s) := by
  have hleases : P (allClients.foldl Machine.tickLease (begin s)).finish :=
    O.work.finish _
      (foldl_keeps (fun w : Work => P w.st) Machine.tickLease O.tickLease allClients (begin s) h)
  unfold Machine.tick
  generalize (allClients.foldl Machine.tickLease (begin s)).finish = u at hleases ⊢
  refine O.engine _ _ _ ?_ (O.engine _ _ _ (tick_speed ..) hleases)
  rw [tick_speed, State.setEngine_engine, if_neg (by decide)]

theorem eventLaw : EventLaw P where
  tick _ held0 held1 h := O.tick held0 held1 h
  lapse _ k h := O.tickLease _ k h
  line _ h := O.work.advanceLine h
  windowOpen _ _ h := O.work.handWindowOpen h
  windowClose _ _ h := O.work.handWindowClose h
  epochEnd _ _ h := O.schedule.endEpoch h
  trigger _ h := O.schedule.takeTrigger h
  transferStart _ b dataLow _ h := O.startTransfer b dataLow h
  nack _ b _ _ dataLow _ h := O.retryOrFail b _ dataLow (O.engine _ _ _ rfl h)
  transferEnd _ b _ bytes _ h := O.endTransfer b true bytes .idle (O.engine _ _ _ rfl h)
  stretch _ b passed _ h := O.exceedStretch b passed h
  recovery _ b lowLooks freed dataLow _ h := O.endRecovery b lowLooks freed dataLow h
  stretchEnd _ _ h := O.engine _ _ _ rfl h

/-! ### RESET_SCHEDULE and DETACH -/

theorem resetSchedule {s : State} (h : P s) : P (resetBatchesAndStore
    (begin (resetQueueEntries (setIssuer none (Machine.enterStopped s))).draw)).st.draw.draw :=
  O.work.draws _ _ (O.work.draws _ _ (O.resetTables _
    (O.work.setIssuer none (O.work.enterStopped h))))

theorem detachTables (k : Client) {s : State} (h : P (detachBatch k (detachClaims k s))) :
    P (detachTables k s) := O.detachQueue k _ 1 (O.detachQueue k _ 0 h)

end OpLaw

end Sys2Proof.Carrying
end


section
/-! PROOFS. The messages of chapter 11: a request's message reads back as the request, and the messages
that pass the port's checks are those that read as one. -/

set_option Elab.async false

namespace Sys2Proof.Messages

open Sys2Proof Sys2Proof.Machine

/-- Settles O1: a step takes the front command off and executes it. -/
theorem stepRunsTheFrontCommand : Obligations.StepRunsTheFrontCommand := by
  refine ⟨fun c rest s h => ?_, fun s h => ?_⟩ <;> simp only [step, h]

/-! ### Fields of two and four bytes -/

@[simp] theorem halfOf_extract (h : Half) : halfOf (h.extractLsb' 8 8) (h.extractLsb' 0 8) = h :=
  (BitVec.extractLsb'_append_extractLsb'_eq_extractLsb' rfl).trans BitVec.extractLsb'_eq_self

@[simp] theorem valueOf_extract (v : Value) : valueOf (v.extractLsb' 24 8) (v.extractLsb' 16 8)
    (v.extractLsb' 8 8) (v.extractLsb' 0 8) = v := by
  unfold valueOf
  have htop : v.extractLsb' 24 8 ++ v.extractLsb' 16 8 = v.extractLsb' 16 16 :=
    BitVec.extractLsb'_append_extractLsb'_eq_extractLsb' rfl
  have hthree : v.extractLsb' 16 16 ++ v.extractLsb' 8 8 = v.extractLsb' 8 24 :=
    BitVec.extractLsb'_append_extractLsb'_eq_extractLsb' rfl
  have hall : v.extractLsb' 8 24 ++ v.extractLsb' 0 8 = v.extractLsb' 0 32 :=
    BitVec.extractLsb'_append_extractLsb'_eq_extractLsb' rfl
  rw [htop, hthree, hall, BitVec.extractLsb'_eq_self]

theorem extract_append_high {n m start len : Nat} (x : BitVec n) (y : BitVec m) (h : m ≤ start) :
    (x ++ y).extractLsb' start len = x.extractLsb' (start - m) len :=
  BitVec.extractLsb'_append_eq_of_le h

theorem extract_append_low {n m : Nat} (x : BitVec n) (y : BitVec m) :
    (x ++ y).extractLsb' 0 m = y :=
  (BitVec.extractLsb'_append_eq_of_add_le (by omega)).trans BitVec.extractLsb'_eq_self

@[simp] theorem halfBytes_halfOf (a b : Byte) : halfBytes (halfOf a b) = [a, b] := by
  have ha : (a ++ b).extractLsb' 8 8 = a :=
    (extract_append_high a b (by omega)).trans BitVec.extractLsb'_eq_self
  exact congrArg₂ (fun x y => [x, y]) ha (extract_append_low a b)

@[simp] theorem valueBytes_valueOf (a b c d : Byte) :
    valueBytes (valueOf a b c d) = [a, b, c, d] := by
  have ha : (a ++ b ++ c ++ d).extractLsb' 24 8 = a :=
    (extract_append_high (a ++ b ++ c) d (by omega)).trans <|
      (extract_append_high (a ++ b) c (by omega)).trans <|
        (extract_append_high a b (by omega)).trans BitVec.extractLsb'_eq_self
  have hb : (a ++ b ++ c ++ d).extractLsb' 16 8 = b :=
    (extract_append_high (a ++ b ++ c) d (by omega)).trans <|
      (extract_append_high (a ++ b) c (by omega)).trans (extract_append_low a b)
  have hc : (a ++ b ++ c ++ d).extractLsb' 8 8 = c :=
    (extract_append_high (a ++ b ++ c) d (by omega)).trans (extract_append_low (a ++ b) c)
  exact congrArg₂ List.cons ha <| congrArg₂ List.cons hb <| congrArg₂ List.cons hc <|
    congrArg₂ List.cons (extract_append_low (a ++ b ++ c) d) rfl

/-! ### The values of a STAGE_RUN -/

theorem valuesOf_valueBytes (values : List Value) :
    valuesOf (values.flatMap valueBytes) = some values := by
  induction values with
  | nil => rfl
  | cons v values ih =>
    have hcons : (v :: values).flatMap valueBytes = v.extractLsb' 24 8 :: v.extractLsb' 16 8 ::
        v.extractLsb' 8 8 :: v.extractLsb' 0 8 :: values.flatMap valueBytes := rfl
    rw [hcons, valuesOf, ih, valueOf_extract, Option.map_some]

theorem flatMap_valueBytes_of_valuesOf : ∀ {bytes : List Byte} {values : List Value},
    valuesOf bytes = some values → values.flatMap valueBytes = bytes
  | [], values, h => by cases h; rfl
  | [_], _, h | [_, _], _, h | [_, _, _], _, h => by cases h
  | a :: b :: c :: d :: rest, values, h => by
    obtain ⟨tail, htail, rfl⟩ := Option.map_eq_some_iff.mp h
    rw [List.flatMap_cons, valueBytes_valueOf, flatMap_valueBytes_of_valuesOf htail]
    rfl

theorem valuesOf_isSome : ∀ {bytes : List Byte}, bytes.length % 4 = 0 →
    ∃ values, valuesOf bytes = some values
  | [], _ => ⟨[], rfl⟩
  | [_], h | [_, _], h | [_, _, _], h => by simp at h
  | a :: b :: c :: d :: rest, h => by
    obtain ⟨values, hv⟩ := valuesOf_isSome (bytes := rest) (by simp only [List.length_cons] at h; omega)
    exact ⟨_, congrArg (Option.map _) hv⟩

theorem length_flatMap_valueBytes (values : List Value) :
    (values.flatMap valueBytes).length = 4 * values.length := by
  simp [List.length_flatMap, valueBytes, Nat.mul_comm]

/-- The lengths that R174 gives a run are those of a well-formed one. -/
theorem runLengthOk_iff (values : List Value) (count : Byte) :
    runLengthOk (4 * values.length + 4) count = true ↔ stageRunLengthOk count values = true := by
  unfold runLengthOk stageRunLengthOk
  split
  · simp only [Bool.and_eq_true, decide_eq_true_eq, beq_iff_eq]; omega
  · simp only [Bool.and_eq_true, decide_eq_true_eq, beq_iff_eq]; omega

theorem decodeRun_valueBytes (k : Client) (tag first count : Byte) (values : List Value)
    (h : stageRunLengthOk count values = true) :
    decodeRun k tag (first :: count :: values.flatMap valueBytes) =
      some (.stageRun k tag first count values) := by
  simp only [decodeRun, length_flatMap_valueBytes, (runLengthOk_iff values count).mpr h, if_true,
    valuesOf_valueBytes, Option.map_some]

/-- Settles O2: each field's bytes read back as the field. -/
theorem requestMessagesReadBack : Obligations.RequestMessagesReadBack := by
  intro k i hk hwf
  cases i with
  | defineSlot client tag slot device register format kind min max initial =>
    cases hk
    refine Eq.trans (b := some (.defineSlot k tag slot device _ format kind _ _ _)) rfl ?_
    rw [halfOf_extract, valueOf_extract, valueOf_extract, valueOf_extract]
  | writeNow client tag slot value =>
    cases hk
    exact congrArg (fun v => some (Instr.writeNow k tag slot v)) (valueOf_extract value)
  | setLease client tag setting =>
    cases hk
    exact congrArg (fun v => some (Instr.setLease k tag v)) (halfOf_extract setting)
  | openBatch client tag target policy epoch =>
    cases hk
    exact congrArg (fun v => some (Instr.openBatch k tag target policy v)) (halfOf_extract epoch)
  | stage client tag slot value =>
    cases hk
    exact congrArg (fun v => some (Instr.stage k tag slot v)) (valueOf_extract value)
  | stageRun client tag first count values =>
    cases hk
    exact decodeRun_valueBytes k tag first count values hwf
  | setGeometry client tag lspan vspan wopen wclose edge =>
    cases hk
    refine Eq.trans (b := some (.setGeometry k tag _ _ _ _ edge)) rfl ?_
    rw [halfOf_extract, halfOf_extract, halfOf_extract, halfOf_extract]
  | start client tag mode epoch =>
    cases hk
    exact congrArg (fun v => some (Instr.start k tag mode v)) (halfOf_extract epoch)
  | readDevice client tag device register width order =>
    cases hk
    exact congrArg (fun v => some (Instr.readDevice k tag device v width order))
      (halfOf_extract register)
  | _ => cases hk <;> rfl

/-! ### From the bytes to the request (R174) -/

theorem byte_eq_of_toNat {code : Byte} {n : Nat} (h : code.toNat = n) (hn : n < 256) :
    code = BitVec.ofNat 8 n := by
  apply BitVec.eq_of_toNat_eq
  rw [h, BitVec.toNat_ofNat, Nat.mod_eq_of_lt hn]

theorem decodeRun_eq_some {k : Client} {tag : Byte} {args : List Byte} {i : Instr}
    (h : decodeRun k tag args = some i) : ∃ first count values,
      i = .stageRun k tag first count values ∧ stageRunLengthOk count values = true ∧
      args = first :: count :: values.flatMap valueBytes := by
  unfold decodeRun at h
  split at h
  · rename_i first count rest
    split at h
    · rename_i hok
      obtain ⟨values, hv, rfl⟩ := Option.map_eq_some_iff.mp h
      have hrest := flatMap_valueBytes_of_valuesOf hv
      subst hrest
      rw [length_flatMap_valueBytes] at hok
      exact ⟨first, count, values, rfl, (runLengthOk_iff values count).mp hok, rfl⟩
    · cases h
  · cases h

/-- A list of `n` bytes, written out. -/
theorem exists_ofFn {args : List Byte} {n : Nat} (h : args.length = n) :
    ∃ f : Fin n → Byte, args = List.ofFn f := by
  subst h
  exact ⟨args.get, (List.ofFn_get args).symm⟩

/-- A list of more than `n` bytes, its first `n + 1` written out. -/
theorem exists_ofFn_append {args : List Byte} {n : Nat} (h : n < args.length) :
    ∃ (f : Fin (n + 1) → Byte) (rest : List Byte), args = List.ofFn f ++ rest := by
  obtain ⟨f, hf⟩ := exists_ofFn (args := args.take (n + 1)) (n := n + 1)
    (List.length_take_of_le h)
  exact ⟨f, args.drop (n + 1), hf ▸ (List.take_append_drop (n + 1) args).symm⟩

/-- Arguments of the length that the code fixes are those of one request. -/
theorem decodeArgs_of_length {code : Byte} {args : List Byte} {n : Nat} (k : Client) (tag : Byte)
    (hrule : lengthRule code = some (.fixed (n + 2))) (hn : args.length = n) :
    ∃ i, decodeArgs k code tag args = some i ∧ messageOf i = code :: tag :: args ∧
      requestClient i = some k ∧ i.wf = true := by
  unfold lengthRule at hrule
  split at hrule
  case h_34 => cases hrule
  case h_13 => cases hrule
  all_goals
    rename_i hcode
    cases hrule
    rw [byte_eq_of_toNat hcode (by decide)]
    obtain ⟨f, rfl⟩ := exists_ofFn hn
    refine ⟨_, rfl, ?_, rfl, rfl⟩
    simp only [messageOf, halfBytes_halfOf, valueBytes_valueOf]
    rfl

theorem decodeArgs_of_length_ne {code : Byte} {args : List Byte} {n : Nat} (k : Client) (tag : Byte)
    (hrule : lengthRule code = some (.fixed (n + 2))) (hn : args.length ≠ n) :
    decodeArgs k code tag args = none := by
  unfold lengthRule at hrule
  split at hrule
  case h_34 => cases hrule
  case h_13 => cases hrule
  all_goals
    rename_i hcode
    cases hrule
    rw [byte_eq_of_toNat hcode (by decide)]
    obtain hlt | hgt := Nat.lt_or_gt_of_ne hn
    · obtain ⟨m, hm⟩ : ∃ m, args.length = m := ⟨_, rfl⟩
      obtain ⟨f, rfl⟩ := exists_ofFn hm
      rw [hm] at hlt
      interval_cases m <;> rfl
    · obtain ⟨f, rest, rfl⟩ := exists_ofFn_append hgt
      rfl

theorem decodeArgs_of_noRule {code : Byte} (k : Client) (tag : Byte) (args : List Byte)
    (hrule : lengthRule code = none) : decodeArgs k code tag args = none := by
  unfold lengthRule at hrule
  split at hrule
  case h_34 =>
    unfold decodeArgs decodeArgs.match_1
    iterate 33 refine (dif_neg ?_).trans ?_; · assumption
    rfl
  all_goals cases hrule

theorem decodeArgs_run {code : Byte} (k : Client) (tag : Byte) (args : List Byte)
    (hrule : lengthRule code = some .run) :
    code = 0x32 ∧ decodeArgs k code tag args = decodeRun k tag args := by
  unfold lengthRule at hrule
  split at hrule
  case h_13 hcode =>
    rw [byte_eq_of_toNat hcode (by decide)]
    exact ⟨rfl, rfl⟩
  all_goals cases hrule

theorem lengthRule_fixed {code : Byte} {n : Nat} (h : lengthRule code = some (.fixed n)) :
    2 ≤ n := by
  unfold lengthRule at h
  split at h <;> cases h <;> decide

/-- R174 on a message with a code byte and a tag: the code has a length rule, and the length obeys. -/
theorem parseRefusal_cons (code tag : Byte) (args : List Byte) :
    parseRefusal (code :: tag :: args) = none ↔
      (∃ n, lengthRule code = some (.fixed (n + 2)) ∧ args.length = n) ∨
      lengthRule code = some .run ∧
        runLengthOk (args.length + 2) ((code :: tag :: args).getD 3 0) = true := by
  unfold parseRefusal
  cases hrule : lengthRule code with
  | none => simp [hrule]
  | some rule =>
    cases rule with
    | fixed n =>
      obtain ⟨m, rfl⟩ : ∃ m, n = m + 2 := ⟨n - 2, by have := lengthRule_fixed hrule; omega⟩
      simp [hrule, eq_comm (a := m)]
    | run => simp [hrule]

theorem decodeRequest_eq_some {k : Client} {code tag : Byte} {args : List Byte} {i : Instr}
    (h : decodeRequest k (code :: tag :: args) = some i) :
    messageOf i = code :: tag :: args ∧ requestClient i = some k ∧ i.wf = true := by
  have hargs : decodeArgs k code tag args = some i := h
  cases hrule : lengthRule code with
  | none => rw [decodeArgs_of_noRule k tag args hrule] at hargs; cases hargs
  | some rule =>
    cases rule with
    | fixed n =>
      obtain ⟨m, rfl⟩ : ∃ m, n = m + 2 := ⟨n - 2, by have := lengthRule_fixed hrule; omega⟩
      by_cases hn : args.length = m
      · obtain ⟨j, hj, hmessage⟩ := decodeArgs_of_length k tag hrule hn
        rw [hj] at hargs
        cases hargs
        exact hmessage
      · rw [decodeArgs_of_length_ne k tag hrule hn] at hargs
        cases hargs
    | run =>
      obtain ⟨rfl, hrun⟩ := decodeArgs_run k tag args hrule
      rw [hrun] at hargs
      obtain ⟨first, count, values, rfl, hok, rfl⟩ := decodeRun_eq_some hargs
      exact ⟨rfl, rfl, hok⟩

/-- A run whose length passes R174 reads as one. -/
theorem decodeRun_of_runLengthOk {tag : Byte} {args : List Byte} (k : Client)
    (h : runLengthOk (args.length + 2) (((0x32 : Byte) :: tag :: args).getD 3 0) = true) :
    ∃ i, decodeRun k tag args = some i := by
  have hlen : 4 ≤ args.length + 2 ∧ (args.length + 2) % 4 = 0 := by
    unfold runLengthOk at h
    simp only [Bool.and_eq_true, decide_eq_true_eq] at h
    obtain ⟨⟨h4, -⟩, h⟩ := h
    split at h
    · simp only [beq_iff_eq] at h; omega
    · simp only [beq_iff_eq] at h; omega
  match args, h, hlen with
  | first :: count :: rest, h, hlen =>
    simp only [List.length_cons] at h hlen
    obtain ⟨values, hv⟩ := valuesOf_isSome (bytes := rest) (by omega)
    have hcount : runLengthOk (rest.length + 4) count = true := h
    exact ⟨.stageRun k tag first count values, by
      simp only [decodeRun, hcount, if_true, hv, Option.map_some]⟩
  | [_], _, hlen | [], _, hlen => simp at hlen

/-- Settles O3: both are the length rule of the code. -/
theorem messagesThatPassReadAsTheirRequest : Obligations.MessagesThatPassReadAsTheirRequest := by
  intro k bytes
  match bytes with
  | [] => exact ⟨by simp [parseRefusal, decodeRequest], fun i h => by cases h⟩
  | [code] =>
    refine ⟨?_, fun i h => by cases h⟩
    simp only [decodeRequest, Option.isSome_none, parseRefusal]
    split <;> simp
  | code :: tag :: args =>
    refine ⟨?_, fun i => decodeRequest_eq_some⟩
    rw [parseRefusal_cons, Option.isSome_iff_exists]
    constructor
    · rintro (⟨n, hrule, hn⟩ | ⟨hrule, hok⟩)
      · obtain ⟨i, hi, -⟩ := decodeArgs_of_length k tag hrule hn
        exact ⟨i, hi⟩
      · obtain ⟨rfl, hrun⟩ := decodeArgs_run k tag args hrule
        obtain ⟨i, hi⟩ := decodeRun_of_runLengthOk k hok
        exact ⟨i, hrun.trans hi⟩
    · rintro ⟨i, hi⟩
      cases hrule : lengthRule code with
      | none => cases (decodeArgs_of_noRule k tag args hrule).symm.trans hi
      | some rule =>
        cases rule with
        | fixed n =>
          obtain ⟨m, rfl⟩ : ∃ m, n = m + 2 := ⟨n - 2, by have := lengthRule_fixed hrule; omega⟩
          by_cases hn : args.length = m
          · exact .inl ⟨m, rfl, hn⟩
          · cases (decodeArgs_of_length_ne k tag hrule hn).symm.trans hi
        | run =>
          obtain ⟨rfl, hrun⟩ := decodeArgs_run k tag args hrule
          obtain ⟨first, count, values, -, hok, rfl⟩ := decodeRun_eq_some (hrun.symm.trans hi)
          refine .inr ⟨rfl, ?_⟩
          have hlen := (runLengthOk_iff values count).mpr hok
          rwa [List.length_cons, List.length_cons, length_flatMap_valueBytes]

end Sys2Proof.Messages
end


section
/-! PROOFS. The host ports: what a message does where it is heard, how the arbiter grants, and how a
request arrives and is served. -/

set_option Elab.async false

namespace Sys2Proof.PortRules

open Sys2Proof Sys2Proof.Machine Sys2Proof.Commands

/-! ### The arbiter's grant (R163) -/

theorem isWaiting_iff {s : State} {k : Client} : s.isWaiting k = true ↔
    (s.port k).state = .working ∧ s.host.inService ≠ some k := by
  unfold State.isWaiting
  simp only [Bool.and_eq_true, beq_iff_eq, bne_iff_ne]

theorem isWaiting_of_ready {s : State} {k : Client} (h : (s.port k).state = .ready) :
    s.isWaiting k = false := by
  simp [State.isWaiting, h]

theorem isWaiting_of_noService {s : State} {k : Client} (hs : s.host.inService = none)
    (h : (s.port k).state = .working) : s.isWaiting k = true :=
  isWaiting_iff.mpr ⟨h, by simp [hs]⟩

/-- The first waiting port, counted from the pointer. -/
theorem firstWaiting_eq {s : State} {n : Fin 4} (hn : s.isWaiting (s.host.pointer + n) = true)
    (hbefore : ∀ m : Fin 4, m < n → s.isWaiting (s.host.pointer + m) = false) :
    s.firstWaiting = some (s.host.pointer + n) := by
  unfold State.firstWaiting
  match n with
  | 0 => simpa using hn
  | 1 =>
    have h0 := hbefore 0 (by decide)
    simp_all
  | 2 =>
    have h0 := hbefore 0 (by decide)
    have h1 := hbefore 1 (by decide)
    simp_all
  | 3 =>
    have h0 := hbefore 0 (by decide)
    have h1 := hbefore 1 (by decide)
    have h2 := hbefore 2 (by decide)
    simp_all

/-- R163: with no request in service the first waiting port from the pointer is granted. -/
theorem grantNext_first {s : State} {n : Fin 4} (hs : s.host.inService = none)
    (hn : (s.port (s.host.pointer + n)).state = .working)
    (hbefore : ∀ m : Fin 4, m < n → (s.port (s.host.pointer + m)).state = .ready) :
    grantNext s = { s with host := { s.host with
      pointer := s.host.pointer + n + 1, inService := some (s.host.pointer + n) } } := by
  have hfirst := firstWaiting_eq (isWaiting_of_noService hs hn)
    (fun m hm => isWaiting_of_ready (hbefore m hm))
  simp only [grantNext, hs, hfirst]

theorem grantNext_inService {s : State} (hs : s.host.inService ≠ none) : grantNext s = s := by
  obtain h | ⟨k, hnone, -, -⟩ := grantNext_cases s
  · exact h
  · exact absurd hnone hs

theorem grantNext_ready {s : State} (h : ∀ j, (s.port j).state = .ready) : grantNext s = s := by
  obtain h' | ⟨k, -, hwait, -⟩ := grantNext_cases s
  · exact h'
  · rw [isWaiting_of_ready (h k)] at hwait; cases hwait

/-- Settles O6: the end of a service is a port update and a grant. -/
theorem serviceEndsAndGrantsTheNext : Obligations.ServiceEndsAndGrantsTheNext := by
  intro k tag code reply s t ht
  have hport : ∀ j : Client, t.port j = if k = j then { s.port k with
      state := .ready, request := none, response := responseBytes reply tag code }
      else s.port j := fun j => ht ▸ endService_port k tag code reply s j
  obtain ⟨u, hu, hnone, hpointer⟩ : ∃ u : State, t = grantNext u ∧ u.host.inService = none ∧
      u.host.pointer = s.host.pointer := ⟨_, ht, rfl, rfl⟩
  have huport : ∀ j, u.port j = t.port j := fun j => hu ▸ (grantNext_port u j).symm
  have hother : ∀ j, j ≠ k → t.port j = s.port j := fun j hj =>
    (hport j).trans (if_neg (Ne.symm hj))
  have hready : (t.port k).state = .ready := by rw [hport k, if_pos rfl]
  refine ⟨?_, (hport k).trans (if_pos rfl), hother, fun h => ?_, fun n hn hwork hbefore => ?_⟩
  · rw [ht, endService]
    obtain h | ⟨j, -, -, h⟩ := grantNext_cases { s.setPort k { s.port k with
      state := .ready, request := none, response := responseBytes reply tag code } with
        host := { (s.setPort k { s.port k with
          state := .ready, request := none,
          response := responseBytes reply tag code }).host with inService := none } } <;>
      (dsimp only; rw [h]) <;> rfl
  · have hall : ∀ j, (u.port j).state = .ready := by
      intro j
      rw [huport]
      by_cases hj : j = k
      · rw [hj]; exact hready
      · rw [hother j hj]; exact h j hj
    rw [hu, grantNext_ready hall]
    exact ⟨hnone, hpointer⟩
  · rw [← hpointer] at hn hwork hbefore ⊢
    have hgrant := grantNext_first (n := n) hnone (by rw [huport, hother _ hn]; exact hwork)
      (fun m hm => by
        rw [huport]
        obtain hk | hr := hbefore m hm
        · rw [hk]; exact hready
        · by_cases hk : u.host.pointer + m = k
          · rw [hk]; exact hready
          · rw [hother _ hk]; exact hr)
    rw [hu, hgrant]
    exact ⟨rfl, rfl⟩

/-! ### A message where it is heard (R156 to R161) -/

theorem padTo_eq (n : Nat) (l : List Byte) :
    padTo n l = (l ++ List.replicate n 0x00).take n := by
  rw [padTo, List.take_append, List.take_replicate]
  congr 2
  omega

/-- A message that the port hears, with a byte and no poll, ends the transaction and is judged. -/
theorem messageEnds_heard {k : Client} {via : Carrier} {bytes : List Byte} {later : Bool} {s : State}
    (hhears : (s.port k).hears via = true) (hne : bytes ≠ [])
    (hpoll : ∀ bits, via = .fourWire bits → bytes.getD 0 0 ≠ 0x00) :
    messageEnds k via bytes later s = endMessage k bytes ((s.port k).takes via) later
      (s.setPort k ((s.port k).endTransaction via bytes.length)) := by
  unfold messageEnds
  cases bytes with
  | nil => exact absurd rfl hne
  | cons code rest =>
    cases via with
    | twoWire address => simp [hhears]
    | fourWire bits =>
      have hcode : code ≠ 0#8 := hpoll bits rfl
      simp [hhears, hcode]

theorem endTransaction_state (p : Port) (via : Carrier) (n : Nat) :
    (p.endTransaction via n).state = p.state := by
  cases via <;> rfl

theorem endTransaction_request (p : Port) (via : Carrier) (n : Nat) :
    (p.endTransaction via n).request = p.request := by
  cases via <;> rfl

theorem reloadLease_setPort (k : Client) (q : Port) (s : State) :
    reloadLease k (s.setPort k q) = (reloadLease k s).setPort k q := rfl

section
variable {k : Client} {via : Carrier} {bytes : List Byte} {later : Bool} {s : State} {q : Port}
  (hhears : (s.port k).hears via = true) (hne : bytes ≠ [])
  (hpoll : ∀ bits, via = .fourWire bits → bytes.getD 0 0 ≠ 0x00)
  (hq : q = (s.port k).endTransaction via bytes.length)
include hhears hne hpoll hq

/-- R161: a message that the port does not take is dropped. -/
theorem messageEnds_dropped (htakes : (s.port k).takes via = false) :
    messageEnds k via bytes later s = (reloadLease k s).setPort k q := by
  rw [messageEnds_heard hhears hne hpoll, htakes, ← hq]
  rfl

/-- R160: what a message that the port takes makes of it. -/
theorem messageEnds_taken (htakes : (s.port k).takes via = true)
    (hready : (s.port k).state = .ready) :
    (parseRefusal bytes = some .badCode → messageEnds k via bytes later s =
      (reloadLease k s).setPort k
        { q with response := [0x10, bytes.getD 1 0, bytes.getD 0 0] }) ∧
    (parseRefusal bytes = some .badLength → messageEnds k via bytes later s =
      (reloadLease k s).setPort k
        { q with response := [0x11, bytes.getD 1 0, bytes.getD 0 0] }) ∧
    (parseRefusal bytes = none → ∀ u : State, u = (reloadLease k s).setPort k
        { q with
          state := .working, request := some bytes,
          response := [0x02, bytes.getD 1 0, bytes.getD 0 0] } →
      messageEnds k via bytes later s = if later then u else grantNext u) := by
  have hport : (s.setPort k q).port k = q := by rw [State.setPort_port, if_pos rfl]
  have hstate : ((s.setPort k q).port k).state = .ready := by
    rw [hport, hq, endTransaction_state, hready]
  rw [messageEnds_heard hhears hne hpoll, htakes, ← hq]
  obtain ⟨h, -⟩ | ⟨-, -, ⟨hr, h⟩ | ⟨hr, h⟩ | ⟨hr, t, ht, h⟩⟩ :=
    endMessage_cases k bytes true later (s.setPort k q)
  · rw [hstate] at h; simp at h
  all_goals
    rw [reloadLease_setPort, State.setPort_setPort, hport] at *
    rw [h, hr]
    refine ⟨?_, ?_, ?_⟩ <;> intro hcase
    any_goals cases hcase
  · rfl
  · rfl
  · rintro u rfl
    subst ht
    rfl

end

/-- The copy of a frame and the bits after it, as a transaction in a framing leaves them. -/
theorem endTransaction_eq {p q : Port} {via : Carrier} {bytes : List Byte}
    (h : via = .twoWire p.strap ∧ p.lock = .twoWire ∧ q = { p with judged := none } ∨
      ∃ bits : Fin 8, via = .fourWire bits ∧ p.lock = .fourWire ∧ bytes.getD 0 0 ≠ 0x00 ∧
        q = { p with
          frame := none,
          shown := ((p.frame.getD p.response) ++ List.replicate bytes.length 0x00).take
            bytes.length,
          shownBits := (List.range bits.val).map (fun j =>
            ((p.frame.getD p.response).getD bytes.length 0x00).getMsbD j) }) :
    p.hears via = true ∧ (∀ bits, via = .fourWire bits → bytes.getD 0 0 ≠ 0x00) ∧
      q = p.endTransaction via bytes.length := by
  obtain ⟨rfl, hlock, rfl⟩ | ⟨bits, rfl, hlock, hcode, rfl⟩ := h
  · exact ⟨by simp [Port.hears, hlock], fun _ hb => (nomatch hb), rfl⟩
  · refine ⟨by simp [Port.hears, hlock], fun _ _ => hcode, ?_⟩
    simp only [Port.endTransaction, padTo_eq]
    rfl

theorem takes_eq {p : Port} {via : Carrier} (hhears : p.hears via = true) :
    p.takes via = ((p.lock == .fourWire || p.judged != some false) && p.state == .ready) := by
  cases via with
  | twoWire address =>
    simp only [Port.hears, Bool.and_eq_true, beq_iff_eq] at hhears
    simp only [Port.takes, hhears.1]
    cases hj : p.judged with
    | none => rfl
    | some j => cases j <;> rfl
  | fourWire bits =>
    simp only [Port.hears, beq_iff_eq] at hhears
    simp [Port.takes, hhears]

theorem whenOperating_of {s : State} (h : s.phase = .operating) (f : State → State) :
    whenOperating s f = f s := if_pos h

/-- Settles O48: by the end of the transaction, the judgement and the arbiter. -/
theorem messagesAreTakenOrRefused : Obligations.MessagesAreTakenOrRefused := by
  intro k via bytes beforeGrant p q s hs hp hne hframe
  subst hp
  obtain ⟨hhears, hpoll, hq⟩ := endTransaction_eq hframe
  have htakes := takes_eq hhears
  have htaken : exec (.messageTaken k ⟨via, beforeGrant⟩ bytes) s =
      .next (messageEnds k via bytes beforeGrant s) := congrArg _ (whenOperating_of hs _)
  have hrefused : exec (.messageRefused k via bytes) s =
      .next (messageEnds k via bytes false s) := congrArg _ (whenOperating_of hs _)
  rw [htaken, hrefused]
  refine ⟨fun hready hjudged => ?_, fun hnot => ?_⟩
  · have hyes : (s.port k).takes via = true := by
      rw [htakes, hready]
      obtain h | h := hjudged <;> simp [h]
    obtain ⟨hcode, hlength, hnone⟩ :=
      messageEnds_taken (later := beforeGrant) hhears hne hpoll hq hyes hready
    refine ⟨fun h => congrArg _ (hcode h), fun h => congrArg _ (hlength h), fun h u hu => ?_⟩
    rw [hnone h u hu]
    have hhost : u.host.inService = s.host.inService ∧ u.host.pointer = s.host.pointer := by
      subst hu; exact ⟨rfl, rfl⟩
    obtain ⟨hservice, hpointer⟩ := hhost
    refine ⟨fun hwhy => ?_, fun hfree hlater n hn hbefore => ?_⟩
    · obtain hbusy | hlater := hwhy
      · rw [grantNext_inService (hservice ▸ hbusy), ite_self]
      · rw [hlater, if_pos rfl]
    · rw [hlater, if_neg Bool.false_ne_true]
      rw [← hpointer] at hn hbefore ⊢
      rw [grantNext_first (hservice.trans hfree) hn hbefore]
  · have hno : (s.port k).takes via = false := by
      rw [htakes]
      obtain h | ⟨hl, hj⟩ := hnot
      · simp [h]
      · simp [hl, hj]
    rw [messageEnds_dropped hhears hne hpoll hq hno]

/-! ### The arrival of a request (R160 to R164) -/

/-- The message of a well-formed request: it has a code byte and a tag, is no poll, and parses. -/
theorem message_parses {i : Instr} {k : Client} (hk : requestClient i = some k) (hwf : i.wf = true) :
    messageOf i ≠ [] ∧ (messageOf i).getD 0 0 ≠ 0x00 ∧ parseRefusal (messageOf i) = none := by
  obtain ⟨hread, hmessage⟩ := Messages.messagesThatPassReadAsTheirRequest k (messageOf i)
  have hparse : parseRefusal (messageOf i) = none := by
    rw [hread, Messages.requestMessagesReadBack k i hk hwf]; rfl
  refine ⟨fun h => ?_, fun h => ?_, hparse⟩
  · rw [h] at hparse; cases hparse
  · cases hm : messageOf i with
    | nil => rw [hm] at hparse; cases hparse
    | cons code rest =>
      rw [hm] at hparse h
      have hcode : code = 0x00 := h
      subst hcode
      cases hparse

theorem serving_iff {s : State} {k : Client} {i : Instr} : s.serving k i = true ↔
    s.host.inService = some k ∧ (s.port k).request = some (messageOf i) := by
  simp [State.serving]

theorem ungranted_iff {s : State} {k : Client} {i : Instr} : s.ungranted k i = true ↔
    s.host.inService = none ∧ s.isWaiting k = true ∧
      (s.port k).request = some (messageOf i) := by
  simp [State.ungranted, and_assoc]

theorem arrive_serving {s : State} {k : Client} {i : Instr} (h : s.serving k i = true) :
    arrive k i s = s := if_pos h

theorem arrive_ungranted {s : State} {k : Client} {i : Instr} (hs : ¬ s.serving k i = true)
    (h : s.ungranted k i = true) : arrive k i s = grantNext s := by
  rw [arrive, if_neg hs, if_pos h]

theorem arrive_message {s : State} {k : Client} {i : Instr} (hs : ¬ s.serving k i = true)
    (h : ¬ s.ungranted k i = true) : arrive k i s = match (s.port k).carrier with
      | none => s
      | some via => messageEnds k via (messageOf i) false s :=
  (if_neg hs).trans (if_neg h)

/-- A request that is not in service once it has arrived waits, or was not taken. -/
theorem exec_of_arrive {i : Instr} {k : Client} {s u : State} (hk : requestClient i = some k)
    (hs : s.phase = .operating) (hu : arrive k i s = u) (hnot : ¬ u.serving k i = true) :
    exec i s = .next u := by
  rw [exec_eq_request hk, request_operating _ hs, hu, if_neg hnot]

/-- A request that is in service once it has arrived is served there. -/
theorem exec_of_served {i : Instr} {k : Client} {s u : State} (hk : requestClient i = some k)
    (hs : s.phase = .operating) (hu : arrive k i s = u) (hin : InService k i u) :
    exec i s = exec i u := by
  have hserving : u.serving k i = true := serving_iff.mpr hin.2
  rw [exec_eq_request hk, exec_eq_request hk, request_operating _ hs, request_operating _ hin.1,
    hu, arrive_serving hserving]

/-- The transaction of a request's own message, by the framing of its port. -/
theorem carrier_hears {p q : Port} {bytes : List Byte} (hcode : bytes.getD 0 0 ≠ 0x00)
    (h : p.lock = .twoWire ∧ q = { p with judged := none } ∨
      p.lock = .fourWire ∧ q = { p with
        frame := none,
        shown := ((p.frame.getD p.response) ++
          List.replicate bytes.length 0x00).take bytes.length,
        shownBits := [] }) :
    ∃ via, p.carrier = some via ∧ p.hears via = true ∧
      (∀ bits, via = .fourWire bits → bytes.getD 0 0 ≠ 0x00) ∧
      q = p.endTransaction via bytes.length := by
  obtain ⟨hlock, rfl⟩ | ⟨hlock, rfl⟩ := h
  · exact ⟨.twoWire p.strap, by simp [Port.carrier, hlock],
      endTransaction_eq (.inl ⟨rfl, hlock, rfl⟩)⟩
  · exact ⟨.fourWire 0, by simp [Port.carrier, hlock],
      endTransaction_eq (.inr ⟨0, rfl, hlock, hcode, rfl⟩)⟩

/-- Settles O4: the arrival is the end of the message at the port, and no grant follows it. -/
theorem requestWaitsBehindAnother : Obligations.RequestWaitsBehindAnother := by
  intro i k p q s hk hwf hs hp
  subst hp
  obtain ⟨hne, hcode, hparse⟩ := message_parses hk hwf
  refine ⟨fun hlock hrequest => ?_, fun hframe => ?_⟩
  · have hserving : ¬ s.serving k i = true := fun h => hrequest (serving_iff.mp h).2
    refine exec_of_arrive hk hs ?_ hserving
    rw [arrive_message hserving (fun h => hrequest (ungranted_iff.mp h).2.2)]
    simp [Port.carrier, hlock]
  obtain ⟨via, hcarrier, hhears, hpoll, hq⟩ := carrier_hears hcode hframe
  have htakes := takes_eq hhears
  refine ⟨fun j hready hjudged hj hjk => ?_, fun hnot => ?_⟩
  · have hno : ∀ u : State, u.host.inService = some j → ¬ u.serving k i = true := fun u hu h =>
      hjk (Option.some.inj (hu.symm.trans (serving_iff.mp h).1))
    have hyes : (s.port k).takes via = true := by
      rw [htakes, hready]
      obtain h | h := hjudged <;> simp [h]
    refine exec_of_arrive hk hs ?_ (hno _ hj)
    have htaken := (messageEnds_taken (later := false) hhears hne hpoll hq hyes hready).2.2 hparse
      _ rfl
    rw [arrive_message (hno s hj) (fun h => by rw [(ungranted_iff.mp h).1] at hj; cases hj),
      hcarrier]
    dsimp only
    rw [htaken, if_neg Bool.false_ne_true, grantNext_inService (by
      change s.host.inService ≠ none; rw [hj]; exact Option.some_ne_none j)]
    rfl
  · have hport : ((reloadLease k s).setPort k q).port k = q := by
      rw [State.setPort_port, if_pos rfl]
    have hmiss : ∀ u : State, u.host.inService = s.host.inService →
        (u.port k).request = (s.port k).request → ¬ u.serving k i = true := by
      intro u hservice hreq h
      obtain ⟨h1, h2⟩ := serving_iff.mp h
      obtain ⟨-, hr⟩ | ⟨-, -, -, hr⟩ := hnot
      · exact hr (hreq ▸ h2)
      · exact hr (hservice ▸ h1)
    have hwait : ¬ s.ungranted k i = true := by
      intro h
      obtain ⟨-, h1, h2⟩ := ungranted_iff.mp h
      obtain ⟨-, hr⟩ | ⟨hr, -⟩ := hnot
      · exact hr h2
      · rw [isWaiting_of_ready hr] at h1; cases h1
    have hno : (s.port k).takes via = false := by
      rw [htakes]
      obtain ⟨h, -⟩ | ⟨-, hl, hj, -⟩ := hnot
      · simp [h]
      · simp [hl, hj]
    refine exec_of_arrive hk hs ?_ (hmiss ((reloadLease k s).setPort k q) rfl ?_)
    · rw [arrive_message (hmiss s rfl rfl) hwait, hcarrier]
      dsimp only
      rw [messageEnds_dropped hhears hne hpoll hq hno]
    · rw [hport, hq, endTransaction_request]

/-- Settles O5: the arrival ends in the grant, from the pointer on. -/
theorem requestIsGrantedAtOnce : Obligations.RequestIsGrantedAtOnce := by
  refine ⟨fun i k p q s u hk hwf hs hnone hready hp hframe hu => ?_,
    fun i k n s u hk hs hnone hwork hreq hn hbefore hu => ?_⟩
  · subst hp
    obtain ⟨hne, hcode, hparse⟩ := message_parses hk hwf
    have hjudged : (s.port k).lock = .fourWire ∨ (s.port k).judged ≠ some false := by
      obtain ⟨-, h, -⟩ | ⟨h, -⟩ := hframe
      · exact .inr h
      · exact .inl h
    obtain ⟨via, hcarrier, hhears, hpoll, hq⟩ := carrier_hears hcode
      (hframe.imp (fun ⟨h1, _, h2⟩ => ⟨h1, h2⟩) id)
    have hyes : (s.port k).takes via = true := by
      rw [takes_eq hhears, hready k]
      obtain h | h := hjudged <;> simp [h]
    have hin : InService k i u := by
      subst hu
      refine ⟨hs, rfl, ?_⟩
      rw [State.setPort_port, if_pos rfl]
    refine ⟨hin, exec_of_served hk hs ?_ hin⟩
    rw [arrive_message (fun h => by rw [(serving_iff.mp h).1] at hnone; cases hnone)
      (fun h => by
        have := (ungranted_iff.mp h).2.1
        rw [isWaiting_of_ready (hready k)] at this
        cases this), hcarrier]
    dsimp only
    rw [(messageEnds_taken (later := false) hhears hne hpoll hq hyes (hready k)).2.2 hparse _ rfl,
      if_neg Bool.false_ne_true]
    obtain ⟨n, hn⟩ : ∃ n : Fin 4, s.host.pointer + n = k := 
      ⟨k - s.host.pointer, add_sub_cancel s.host.pointer k⟩
    have hport : ∀ j : Client, ((reloadLease k s).setPort k { q with
        state := .working, request := some (messageOf i),
        response := [0x02, (messageOf i).getD 1 0, (messageOf i).getD 0 0] }).port j =
        if k = j then _ else s.port j := fun j => State.setPort_port _ _ _ _
    refine (grantNext_first (n := n) (show ((reloadLease k s).setPort k _).host.inService = none
      from hnone) ?_ fun m hm => ?_).trans ?_
    · exact congrArg Port.state ((hport _).trans (if_pos hn.symm))
    · exact (congrArg Port.state ((hport _).trans (if_neg (fun h =>
        Fin.ne_of_lt hm (add_left_cancel (hn.trans h)).symm)))).trans (hready _)
    · rw [hu, ← hn]; rfl
  · have hgrant : grantNext s = u := (grantNext_first hnone hn hbefore).trans hu.symm
    have hwait : s.isWaiting k = true := isWaiting_of_noService hnone hwork
    have harrive : arrive k i s = u := by
      rw [arrive_ungranted (fun h => by rw [(serving_iff.mp h).1] at hnone; cases hnone)
        (ungranted_iff.mpr ⟨hnone, hwait, hreq⟩), hgrant]
    have hservice : u.host.inService = some (s.host.pointer + n) := by rw [hu]
    have hphase : u.phase = .operating := by rw [hu]; exact hs
    have hport : u.port k = s.port k := hgrant ▸ grantNext_port s k
    refine ⟨fun hnk => ?_, fun hnk => ?_⟩
    · have hin : InService k i u := ⟨hphase, hnk ▸ hservice, hport ▸ hreq⟩
      exact ⟨hin, exec_of_served hk hs harrive hin⟩
    · refine exec_of_arrive hk hs harrive (fun h => hnk ?_)
      exact Option.some.inj (hservice.symm.trans (serving_iff.mp h).1)

/-! ### What a port shows (R154 to R159, R178) -/

theorem setPort_self (s : State) (k : Client) : s.setPort k (s.port k) = s := by
  simp only [State.setPort, State.port, put_self]

theorem hears_twoWire (p : Port) (address : BitVec 7) :
    p.hears (.twoWire address) = true ↔ p.lock = .twoWire ∧ address = p.strap := by
  simp [Port.hears]

theorem hostDataOut_driven {s : State} {k : Client} (hs : s.phase = .operating) :
    s.hostDataOut k = .driven ↔ (s.port k).lock = .fourWire ∧ (s.port k).frame ≠ none := by
  simp only [State.hostDataOut, hs]
  rw [Port.dataOut_eq_driven, Option.isSome_iff_ne_none]

section
variable {s : State} {k : Client} (hs : s.phase = .operating)
include hs

theorem exec_readTransaction (address : BitVec 7) (count : Nat) :
    exec (.readTransaction k address count) s = .next
      (if (s.port k).hears (.twoWire address) = true then
        s.setPort k { s.port k with shown := padTo count (s.port k).response, shownBits := [] }
      else s) := congrArg _ (whenOperating_of hs _)

theorem exec_twoWireCodeByte (address : BitVec 7) :
    exec (.twoWireCodeByte k address) s = .next
      (if (s.port k).hears (.twoWire address) = true then
        s.setPort k { s.port k with judged := some ((s.port k).state == .ready) }
      else s) := congrArg _ (whenOperating_of hs _)

theorem exec_fourWireFrameStart : exec (.fourWireFrameStart k) s = .next
    (if (s.port k).lock = .fourWire then
      s.setPort k { s.port k with frame := some (s.port k).response } else s) :=
  congrArg _ (whenOperating_of hs _)

theorem exec_pollNone (clocks : Nat) : exec (.pollNone k clocks) s = .next
    (if (s.port k).lock = .fourWire then
      reloadLease k (s.setPort k ((s.port k).endTransaction (.fourWire (Fin.ofNat 8 clocks))
        (1 + clocks / 8))) else s) := congrArg _ (whenOperating_of hs _)

theorem exec_framingDetection (condition : FramingCondition) :
    exec (.framingDetection k condition) s = .next
      (s.setPort k ((s.port k).detect condition)) := congrArg _ (whenOperating_of hs _)

/-- R158, R159: a frame with no complete byte shows the bits that its clocks reach. -/
theorem exec_cutFrame (hlock : (s.port k).lock = .fourWire) (bits : Fin 8) (beforeGrant : Bool) :
    exec (.messageTaken k ⟨.fourWire bits, beforeGrant⟩ []) s = .next
      (s.setPort k ((s.port k).endTransaction (.fourWire bits) 0)) := by
  refine congrArg _ ((whenOperating_of hs _).trans ?_)
  simp [messageEnds, Port.hears, hlock]

end

/-- Settles O49: every condition at a port's pins is one update of that port, or none. -/
theorem portTransactionsShowTheResponse : Obligations.PortTransactionsShowTheResponse := by
  intro k p s hs hp
  subst hp
  refine ⟨hostDataOut_driven hs, fun address count hlock haddress => ?_,
    fun address count hno => ?_, fun hlock => ⟨?_, fun bits copy hcopy => ⟨fun extra => ?_,
      fun beforeGrant => ?_⟩⟩, fun hlock => ⟨?_, fun clocks => ?_⟩, fun hlock => ?_,
    fun hlock condition => ?_⟩
  · have hhears := (hears_twoWire (s.port k) address).mpr ⟨hlock, haddress⟩
    rw [exec_readTransaction hs, exec_twoWireCodeByte hs, if_pos hhears, if_pos hhears, padTo_eq]
    exact ⟨rfl, by rw [← beq_eq_decide]⟩
  · have hhears : ¬ (s.port k).hears (.twoWire address) = true := fun h => by
      obtain ⟨h1, h2⟩ := (hears_twoWire _ _).mp h
      exact hno.elim (fun hl => hl h1) (fun ha => ha h2)
    rw [exec_readTransaction hs, exec_twoWireCodeByte hs, if_neg hhears, if_neg hhears]
    exact ⟨rfl, rfl⟩
  · rw [exec_fourWireFrameStart hs, if_pos hlock]
  · have hbits : Fin.ofNat 8 (8 * extra + bits.val) = bits :=
      Fin.ext (by rw [Fin.val_ofNat]; omega)
    have hbytes : 1 + (8 * extra + bits.val) / 8 = extra + 1 := by omega
    rw [exec_pollNone hs, if_pos hlock, hbits, hbytes, reloadLease_setPort, hcopy]
    simp only [Port.endTransaction, padTo_eq]
    rfl
  · rw [exec_cutFrame hs hlock, hcopy]
    simp only [Port.endTransaction, padTo_eq, List.replicate_zero, List.take_zero]
    rfl
  · rw [exec_fourWireFrameStart hs, if_neg hlock]
  · rw [exec_pollNone hs, if_neg hlock]
  · have hdetect : ∀ condition q, (s.port k).detect condition = q →
        exec (.framingDetection k condition) s = .next (s.setPort k q) := fun condition q h =>
      h ▸ exec_framingDetection hs condition
    have hsame : ∀ condition, (s.port k).detect condition = s.port k →
        exec (.framingDetection k condition) s = .next s := fun condition h =>
      (hdetect condition _ h).trans (by rw [setPort_self])
    refine ⟨fun hway hfall => hdetect _ _ ?_, fun hbusy => hsame _ ?_, hsame _ ?_, hdetect _ _ ?_,
      hdetect _ _ ?_⟩
    · simp [Port.detect, hlock, hway, hfall]
    · obtain h | h := hbusy <;> simp [Port.detect, hlock, h]
    all_goals simp [Port.detect, hlock]
  · have hdetect : (s.port k).detect condition = s.port k := if_pos hlock
    rw [exec_framingDetection hs, hdetect, setPort_self]

/-! ### Reset and start-up (R177, R178) -/

theorem strapOf_eq (a : BitVec 2) : strapOf a = BitVec.ofNat 7 (0x58 + a.toNat) := by
  apply BitVec.eq_of_toNat_eq
  have := a.isLt
  simp only [strapOf, BitVec.toNat_add, BitVec.toNat_ofNat, BitVec.truncate_eq_setWidth,
    BitVec.toNat_setWidth]
  omega

/-- A command other than a pin reset, and other than the phase's own, waits for the part to operate. -/
theorem exec_notOperating {i : Instr} {s : State} (hs : s.phase ≠ .operating)
    (hpin : ∀ cause, i ≠ .pinReset cause) (hheld : s.phase = .held → i ≠ .resetRelease)
    (hstartup : s.phase = .startup → ∀ p0 p1 p2 p3, i ≠ .startupEnd p0 p1 p2 p3) :
    exec i s = .next s := by
  have hwait : ∀ f : State → State, whenOperating s f = s := fun f => if_neg hs
  cases i with
  | pinReset cause => exact absurd rfl (hpin cause)
  | resetRelease => exact congrArg _ (if_neg fun h => hheld h rfl)
  | startupEnd p0 p1 p2 p3 => exact congrArg _ (if_neg fun h => hstartup h p0 p1 p2 p3 rfl)
  | _ => exact congrArg _ (hwait _)

/-- Settles O52: the phases are those of three commands, and every other command waits. -/
theorem resetAndStartupTakeTheirPhases : Obligations.ResetAndStartupTakeTheirPhases := by
  refine ⟨fun cause s hcause => ?_, fun s => ?_, fun s hs => ?_, fun p0 p1 p2 p3 s hs => ?_,
    fun b s hs => ?_, fun i s hs hpin hheld hstartup => exec_notOperating hs hpin hheld hstartup⟩
  · cases cause with
    | shortPulse => exact absurd rfl hcause
    | resetLow => rfl
    | powerUp => rfl
    | supplyFall => rfl
  · refine ⟨_, rfl, ?_⟩
    split
    · exact .inr rfl
    · exact .inl rfl
  · exact congrArg _ (if_pos hs)
  · refine ⟨sampleStrap 0 p0 (sampleStrap 1 p1 (sampleStrap 2 p2 (sampleStrap 3 p3
      { s with phase := .operating }))), congrArg Host.Outcome.next (if_pos hs), rfl,
      fun k p hk => ?_⟩
    simp only [sampleStrap, State.setPort_port, strapOf_eq]
    obtain ⟨rfl, rfl⟩ | ⟨rfl, rfl⟩ | ⟨rfl, rfl⟩ | ⟨rfl, rfl⟩ := hk <;> rfl
  · unfold State.busLines
    split
    · rfl
    · rfl
    · exact absurd ‹_› hs

end Sys2Proof.PortRules
end


section
/-! PROOFS. Requests of the Slot Table, the Claim Table, the generator, the device table and the event
queues: each is answered by its rule, check by check. -/

set_option Elab.async false

namespace Sys2Proof.Requests

open Sys2Proof Sys2Proof.Machine Sys2Proof.Commands

/-! ### The answer of a request in service -/

/-- A request in service is answered as its rule says. -/
theorem exec_answers {i : Instr} {k : Client} {s : State} {w : Work} {status : Status}
    {payload : List Byte} (hk : requestClient i = some k) (h : InService k i s)
    (hrule : ruleOf i s = answer w status payload) :
    exec i s = .next (endService k (tagOf i) (codeOf i) ⟨status, payload⟩ w.finish) := by
  rw [exec_inService hk h, hrule, answer_work, answer_reply]

/-- A request in service that its rule grants with no record offered. -/
theorem exec_changes {i : Instr} {k : Client} {s t : State} {status : Status}
    {payload : List Byte} (hk : requestClient i = some k) (h : InService k i s)
    (hrule : ruleOf i s = answer (begin t) status payload) :
    exec i s = .next (endService k (tagOf i) (codeOf i) ⟨status, payload⟩ t) := by
  rw [exec_answers hk h hrule, begin_finish]

/-- A request in service that its rule refuses changes nothing but the port. -/
theorem exec_refuses {i : Instr} {k : Client} {s : State} {status : Status} {payload : List Byte}
    (hk : requestClient i = some k) (h : InService k i s)
    (hrule : ruleOf i s = refuse s status payload) :
    exec i s = .next (endService k (tagOf i) (codeOf i) ⟨status, payload⟩ s) :=
  exec_changes hk h hrule

theorem ruleOf_withToken {i : Instr} {k : Client} {body : Service} {s : State}
    {r : Work × Reply} (hrule : ruleOf i s = withToken k body s)
    (htoken : s.claims.token = some k) (hbody : body s = r) : ruleOf i s = r := by
  rw [hrule, withToken_held body htoken, hbody]

/-! ### The token and the run state (R24) -/

theorem ruleOf_needsToken {i : Instr} {k : Client} (hk : requestClient i = some k)
    (h : needsToken i = true) : ∃ body, ∀ s, ruleOf i s = withToken k body s := by
  cases i <;> cases h <;> cases hk <;> exact ⟨_, fun _ => rfl⟩

theorem ruleOf_needsStopped {i : Instr} {k : Client} {s : State} (hk : requestClient i = some k)
    (h : needsStopped i = true) (htoken : s.claims.token = some k) (hrun : s.gen.run ≠ .stopped) :
    ruleOf i s = refuse s .wrongState := by
  cases i with
  | defineSlot client tag slot device register format kind min max initial =>
    cases hk
    have hlocal : isLocal (slotNo slot) = false := by simpa [needsStopped] using h
    refine ruleOf_withToken rfl htoken ?_
    simp only [serveDefineSlot, hlocal, hrun, ne_eq, not_false_eq_true, if_true, if_false,
      Bool.false_eq_true]
  | undefineSlot client tag slot =>
    cases hk
    have hlocal : isLocal (slotNo slot) = false := by simpa [needsStopped] using h
    refine ruleOf_withToken rfl htoken ?_
    simp only [serveUndefineSlot, hlocal, hrun, ne_eq, not_false_eq_true, if_true, if_false,
      Bool.false_eq_true]
  | setGeometry | start | defineDevice | busConfig =>
    cases hk
    exact ruleOf_withToken rfl htoken (if_pos hrun)
  | _ => cases h

/-- Settles O7: the token test comes first, the run state after it. -/
theorem requestsWithoutTokenOrStoppedAreRefused :
    Obligations.RequestsWithoutTokenOrStoppedAreRefused := by
  intro i k s hk h
  refine ⟨fun hneeds htoken => ?_, fun hneeds htoken hrun => ?_⟩
  · obtain ⟨body, hrule⟩ := ruleOf_needsToken hk hneeds
    exact exec_refuses hk h ((hrule s).trans (withToken_missing body htoken))
  · exact exec_refuses hk h (ruleOf_needsStopped hk hneeds htoken hrun)

/-! ### The Slot Table -/

theorem isLocal_iff (i : SlotNo) : isLocal i = true ↔ 232 ≤ i.val := decide_eq_true_iff

theorem isLocal_slotNo_false {slot : Byte} (h : slot.toNat < 232) : isLocal (slotNo slot) = false :=
  decide_eq_false (Nat.not_le.mpr h)

theorem deviceNo_ofNat (d : DeviceNo) : deviceNo (BitVec.ofNat 8 d.val) = some d := by
  revert d; decide

theorem deviceNo_eq {b : Byte} {d : DeviceNo} (h : b.toNat = d.val) : deviceNo b = some d := by
  have hlt : b.toNat < 8 := h ▸ d.isLt
  rw [deviceNo, dif_pos hlt]
  exact congrArg some (Fin.ext h)

theorem busNo_eq {b : Byte} {c : BusNo} (h : b.toNat = c.val) : busNo b = some c := by
  have hlt : b.toNat < 2 := h ▸ c.isLt
  rw [busNo, dif_pos hlt]
  exact congrArg some (Fin.ext h)

theorem clientNo_eq {b : Byte} {k : Client} (h : b.toNat = k.val) : clientNo b = some k := by
  have hlt : b.toNat < 4 := h ▸ k.isLt
  rw [clientNo, dif_pos hlt]
  exact congrArg some (Fin.ext h)

/-- Section 11.2: the format byte of a width and a byte order. -/
def formatByte (width : Fin 5) (order : ByteOrder) : Byte :=
  BitVec.ofNat 8 (width.val + match order with | .msbFirst => 0 | .lsbFirst => 16)

/-- Section 11.2: the kind byte of a class, a lead and a prime flag. -/
def kindByte (cls : SlotClass) (lead : Fin 4) (prime : Bool) : Byte :=
  BitVec.ofNat 8 ((match cls with | .epoch => 0 | .immediate => 1 | .standby => 2) +
    4 * lead.val + if prime then 32 else 0)

theorem formatByte_fields (width : Fin 5) (order : ByteOrder) :
    formatOrder (formatByte width order) = some order ∧
      ((formatByte width order).extractLsb' 0 3).toNat = width.val ∧
      (formatByte width order).extractLsb' 6 2 = 0#2 ∧
      (formatByte width order).extractLsb' 3 1 = 0#1 := by
  cases order <;> revert width <;> decide

theorem kindByte_fields (cls : SlotClass) (lead : Fin 4) (prime : Bool) :
    kindClass (kindByte cls lead prime) = some cls ∧
      kindPrime (kindByte cls lead prime) = some prime ∧
      ((kindByte cls lead prime).extractLsb' 2 3).toNat = lead.val ∧
      (kindByte cls lead prime).extractLsb' 7 1 = 0#1 := by
  cases cls <;> cases prime <;> revert lead <;> decide

theorem descriptorOf_fields (d : DeviceNo) (width : Fin 5) (order : ByteOrder) (cls : SlotClass)
    (lead : Fin 4) (prime : Bool) {min max initial : Value} (hwidth : 1 ≤ width.val)
    (hlead : lead.val = 0 ∨ cls = .epoch) (hmin : min.toNat ≤ initial.toNat)
    (hmax : initial.toNat ≤ max.toNat) (hfits : max.toNat < 2 ^ (8 * width.val)) :
    descriptorOf (BitVec.ofNat 8 d.val) (formatByte width order) (kindByte cls lead prime) min max
      initial = some {
        device := d, width := width.val, order := order, cls := cls, lead := lead.val,
        prime := prime } := by
  obtain ⟨horder, hw, h6, h3⟩ := formatByte_fields width order
  obtain ⟨hclass, hprime, hl, h7⟩ := kindByte_fields cls lead prime
  have hw4 : widthOk width.val = true := by
    simp only [widthOk, Bool.and_eq_true, decide_eq_true_eq]; omega
  have hl3 : lead.val ≤ 3 := by omega
  have hlead' : (lead.val == 0 || cls == .epoch) = true := by
    simpa [Bool.or_eq_true, beq_iff_eq] using hlead
  have hfits' : max.toNat ≤ 2 ^ (8 * width.val) - 1 := Nat.le_sub_one_of_lt hfits
  have hminmax : min.toNat ≤ max.toNat := hmin.trans hmax
  simp only [descriptorOf, deviceNo_ofNat, horder, hclass, hprime, Option.bind_eq_bind,
    Option.bind_some, hw, h6, h3, hl, h7, hw4, hlead', hl3, hfits', hminmax, hmin, hmax,
    decide_true, beq_self_eq_true, Bool.and_self, if_true]

theorem registerFits_iff {d : Device} {register : Half} : registerFits d register = true ↔
    (d.size = 1 → register.toNat ≤ 255) := by
  simp only [registerFits, Bool.not_eq_true', Bool.and_eq_false_iff, beq_eq_false_iff_ne,
    decide_eq_false_iff_not, Nat.not_lt]
  tauto

/-- Settles O8: DEFINE_SLOT passes its checks one by one. -/
theorem defineSlotWritesTheRecord : Obligations.DefineSlotWritesTheRecord := by
  intro k tag slot d register width order cls lead prime min max initial format kind s hformat hkind
    h htoken hslot hrun hfree hbusy hwidth hlead hmin hmax hfits hpresent hregister
  refine exec_changes rfl h (ruleOf_withToken rfl htoken ?_)
  have hd := descriptorOf_fields d width order cls lead prime hwidth hlead hmin hmax hfits
  rw [show formatByte width order = format from hformat.symm,
    show kindByte cls lead prime = kind from hkind.symm] at hd
  have hreg : registerFits (s.device d) register = true := registerFits_iff.mpr hregister
  simp only [serveDefineSlot, isLocal_slotNo_false hslot, hrun, hbusy, hd, hpresent, hreg,
    ClaimTable.heldByOther_eq_false_iff.mpr hfree, Bool.false_eq_true, if_false, Bool.not_true,
    ne_eq, not_true_eq_false]
  rfl

/-- Settles O9: both refuse a local slot first; UNDEFINE_SLOT passes its checks one by one. -/
theorem undefineSlotReturnsTheSlot : Obligations.UndefineSlotReturnsTheSlot := by
  refine ⟨fun k i s h htoken hi => ?_, fun k tag slot s h htoken hslot hrun hdefined hfree hpending
    hqueued => ?_⟩
  · have hlocal : ∀ slot : Byte, 232 ≤ slot.toNat → isLocal (slotNo slot) = true :=
      fun slot hslot => (isLocal_iff _).mpr hslot
    obtain ⟨tag, slot, rfl, hslot⟩ | ⟨tag, slot, _, _, _, _, _, _, _, rfl, hslot⟩ := hi
    · exact exec_refuses rfl h (ruleOf_withToken rfl htoken (if_pos (hlocal slot hslot)))
    · exact exec_refuses rfl h (ruleOf_withToken rfl htoken (if_pos (hlocal slot hslot)))
  · refine exec_changes rfl h (ruleOf_withToken rfl htoken ?_)
    simp only [serveUndefineSlot, isLocal_slotNo_false hslot, hrun, hdefined, hpending, hqueued,
      ClaimTable.heldByOther_eq_false_iff.mpr hfree, Bool.false_eq_true, if_false, Bool.not_true,
      ne_eq, not_true_eq_false, or_self]
    rfl

/-! ### Contexts by their properties -/

theorem findContext_eq {s : State} {k : Client} {p : Batch → Bool} {n : Fin 4}
    (hn : p (s.context k n) = true) (hbefore : ∀ m : Fin 4, m < n → p (s.context k m) = false) :
    s.findContext k p = some n := by
  unfold State.findContext
  match n with
  | 0 => simp [hn]
  | 1 =>
    have h0 := hbefore 0 (by decide)
    simp [hn, h0]
  | 2 =>
    have h0 := hbefore 0 (by decide)
    have h1 := hbefore 1 (by decide)
    simp [hn, h0, h1]
  | 3 =>
    have h0 := hbefore 0 (by decide)
    have h1 := hbefore 1 (by decide)
    have h2 := hbefore 2 (by decide)
    simp [hn, h0, h1, h2]

theorem findContext_eq_none {s : State} {k : Client} {p : Batch → Bool} :
    s.findContext k p = none ↔ ∀ n : Fin 4, p (s.context k n) = false := by
  simp [State.findContext, Fin.forall_fin_succ]

theorem openContext_eq {s : State} {k : Client} {n : Fin 4} (h : OpenAt k n s) :
    s.openContext k = some n :=
  findContext_eq (by simp [h.1]) (fun m hm => by simp [h.2 m hm])

theorem openContext_eq_none {s : State} {k : Client} :
    s.openContext k = none ↔ ∀ n : Fin 4, (s.context k n).state ≠ .opened := by
  simp [State.openContext, findContext_eq_none]

theorem sealPosition_eq {s : State} {r : BatchRef} {position : Nat}
    (h : r ∉ s.batches.sealList ∧ position = 0 ∨
      1 ≤ position ∧ s.batches.sealList[position - 1]? = some r ∧
      ∀ j < position - 1, s.batches.sealList[j]? ≠ some r) : s.sealPosition r = position := by
  unfold State.sealPosition
  obtain ⟨hmem, rfl⟩ | ⟨hpos, hat, hbefore⟩ := h
  · have : s.batches.sealList.findIdx? (· == r) = none := by
      rw [List.findIdx?_eq_none_iff]
      intro x hx
      simp only [beq_eq_false_iff_ne, ne_eq]
      exact fun hxr => hmem (hxr ▸ hx)
    rw [this]
  · obtain ⟨hlt, hget⟩ := List.getElem?_eq_some_iff.mp hat
    have : s.batches.sealList.findIdx? (· == r) = some (position - 1) := by
      rw [List.findIdx?_eq_some_iff_getElem]
      refine ⟨hlt, by simp [hget], fun j hj => ?_⟩
      have := hbefore j hj
      rw [List.getElem?_eq_getElem (by omega)] at this
      simpa using this
    rw [this]
    exact Nat.sub_add_cancel hpos

/-- Settles O10: both rules answer what stands. -/
theorem slotAndBatchReadsChangeNothing : Obligations.SlotAndBatchReadsChangeNothing := by
  refine ⟨fun k tag slot s h => exec_changes rfl h rfl,
    fun k tag id n position s h hlive hid hbefore hposition => exec_changes rfl h ?_⟩
  have hfind : s.findContext k (fun b => b.state != .free && b.id == id.toNat) = some n := by
    refine findContext_eq (by simp [hlive, hid]) fun m hm => ?_
    obtain hm | hm := hbefore m hm <;> simp [hm]
  simp only [ruleOf, serveReadBatch, hfind, sealPosition_eq hposition]

/-! ### The Claim Table -/

theorem rangeOk_false {first count : Byte}
    (h : count.toNat < 1 ∨ 64 < count.toNat ∨ 256 < first.toNat + count.toNat) :
    ¬ rangeOk first count = true := by
  rw [ClaimTable.rangeOk_iff]
  omega

/-- Settles O13: RELEASE takes the requester off the range's slots. -/
theorem releaseGivesUpOwnClaims : Obligations.ReleaseGivesUpOwnClaims := by
  intro k tag first count s h
  refine ⟨fun hbad => exec_refuses rfl h ?_, fun hlow hhigh hlast => ?_⟩
  · simp only [ruleOf, serveRelease, rangeOk_false hbad, Bool.not_false, if_true]
  · have hok : rangeOk first count = true := (ClaimTable.rangeOk_iff first count).mpr
      ⟨hlow, hhigh, hlast⟩
    refine ⟨releaseSlots k (slotRange first.toNat count.toNat) s, exec_changes rfl h ?_,
      fun i => ?_, Effects.releaseSlots_frame k _ s⟩
    · simp only [ruleOf, serveRelease, hok, Bool.not_true, Bool.false_eq_true, if_false,
        State.ownedAmong, ClaimTable.countP_slotRange]
      rfl
    · rw [Effects.releaseSlots_owner]
      simp only [ClaimTable.mem_slotRange, and_assoc]

theorem countP_toList {α : Type} {n : Nat} (v : Vector α n) (p : α → Bool) :
    v.toList.countP p = (List.finRange n).countP (fun i => p v[i.val]) := by
  have hlist : v.toList = (List.finRange n).map (fun i => v[i.val]) :=
    List.ext_getElem (by simp) (fun j _ _ => by simp)
  rw [hlist, List.countP_map]
  rfl

/-- The number of slots that a client owns, slot by slot. -/
theorem ownedCount_eq (s : State) (k : Client) :
    s.ownedCount k = (List.finRange 256).countP (fun i => s.owner i == some k) :=
  countP_toList _ _

/-- One record offered at an event that has changed the tables to `s`. -/
theorem offerTo_finish (k : Client) (e : Event) (s : State) :
    (offerTo k e (begin s)).finish =
      deliverOne s { client := k, stamp := s.gen.c, event := e } := rfl

theorem serveRevoke_granted {k j : Client} {named : Byte} {s : State} (hj : named.toNat = j.val)
    (hjk : j ≠ k) : serveRevoke k named s =
      answer (offerTo j (.claimsRevoked k (s.ownedCount j)) (begin (releaseAll j s))) .ok
        (countBytes (s.ownedCount j)) := by
  simp only [serveRevoke, clientNo_eq hj, if_neg hjk]

/-- Settles O16: REVOKE takes the named client off every slot. -/
theorem revokeFreesTheNamedClient : Obligations.RevokeFreesTheNamedClient := by
  intro k tag named s h htoken
  refine ⟨fun hbad => exec_refuses rfl h (ruleOf_withToken rfl htoken ?_), fun j hj hjk =>
    ⟨releaseAll j s, s.ownedCount j, ownedCount_eq s j, ?_, Effects.releaseAll_owner j s,
      Effects.releaseAll_frame j s⟩⟩
  · obtain hbig | hown := hbad
    · have hnone : clientNo named = none := dif_neg (by omega)
      simp only [serveRevoke, hnone]
    · simp only [serveRevoke, clientNo_eq hown, if_true]
  · rw [exec_answers rfl h (ruleOf_withToken rfl htoken (serveRevoke_granted hj hjk)),
      offerTo_finish]
    rfl

/-! ### The geometry -/

theorem geometryOk_iff (lspan vspan wopen wclose : Half) :
    geometryOk lspan.toNat vspan.toNat wopen.toNat wclose.toNat = true ↔
      32 ≤ lspan.toNat ∧ lspan.toNat ≤ 4095 ∧ 64 ≤ vspan.toNat ∧ wopen.toNat ≤ 65531 ∧
        4 ≤ wclose.toNat ∧ wopen.toNat < wclose.toNat ∧ wclose.toNat ≤ vspan.toNat ∧
        wopen.toNat + 4 ≤ wclose.toNat := by
  have hlt := vspan.isLt
  simp only [geometryOk, Bool.and_eq_true, decide_eq_true_eq]
  omega

theorem edgeOf_eq {edge : Byte} (h : edge = 0x00 ∨ edge = 0x01) :
    edgeOf edge = some (if edge = 0x00 then .rising else .falling) := by
  obtain rfl | rfl := h <;> rfl

/-- Settles O25: the five items are checked together. -/
theorem setGeometryTakesAllOrNothing : Obligations.SetGeometryTakesAllOrNothing := by
  intro k tag lspan vspan wopen wclose edge s h htoken hrun
  refine ⟨fun ⟨h1, h2, h3, h4, h5, h6, h7, h8, hedge⟩ => ?_, fun hbad => ?_⟩
  · have hok := (geometryOk_iff lspan vspan wopen wclose).mpr ⟨h1, h2, h3, h4, h5, h6, h7, h8⟩
    refine exec_changes rfl h (ruleOf_withToken rfl htoken ?_)
    simp only [serveSetGeometry, hrun, edgeOf_eq hedge, hok, ne_eq, not_true_eq_false, if_false,
      Bool.not_true, Bool.false_eq_true]
  · refine exec_refuses rfl h (ruleOf_withToken rfl htoken ?_)
    have hno : edgeOf edge = none ∨
        geometryOk lspan.toNat vspan.toNat wopen.toNat wclose.toNat = false := by
      rw [← Bool.not_eq_true, geometryOk_iff]
      by_cases hedge : edge = 0x00 ∨ edge = 0x01
      · right
        rintro ⟨h1, h2, h3, h4, h5, h6, h7, h8⟩
        obtain h | h | h | h | h | h | h | h | ⟨hne0, hne1⟩ := hbad
        any_goals omega
        exact hedge.elim hne0 hne1
      · left
        rw [not_or] at hedge
        rw [edgeOf, if_neg hedge.1, if_neg hedge.2]
    simp only [serveSetGeometry, hrun, ne_eq, not_true_eq_false, if_false]
    cases hedge : edgeOf edge with
    | none => rfl
    | some e =>
      obtain hnone | hbad := hno
      · rw [hedge] at hnone; cases hnone
      · simp only [hbad, Bool.not_false, if_true]

/-! ### Devices and buses -/

theorem append_of_room {b : BusNo} {s : State} (e : Entry) (h : (s.queue b).length < 32) :
    append b e s = s.setQueue b (s.queue b ++ [e]) := if_pos ((hasRoom_iff s b).mpr h)

theorem hasRoom_false {b : BusNo} {s : State} (h : 32 ≤ (s.queue b).length) :
    s.hasRoom b = false := by
  rw [← Bool.not_eq_true, hasRoom_iff]
  omega

theorem orderOf_eq {order : Byte} {o : ByteOrder}
    (h : order = 0x00 ∧ o = .msbFirst ∨ order = 0x01 ∧ o = .lsbFirst) : Machine.orderOf order = some o := by
  obtain ⟨rfl, rfl⟩ | ⟨rfl, rfl⟩ := h <;> rfl

theorem orderOf_eq_none {order : Byte} (h : 1 < order.toNat) : Machine.orderOf order = none := by
  have h0 : order ≠ 0x00 := by rintro rfl; simp at h
  have h1 : order ≠ 0x01 := by rintro rfl; simp at h
  rw [Machine.orderOf, if_neg h0, if_neg h1]

/-- Settles O35: the five checks of READ_DEVICE, in their order. -/
theorem readDeviceAppendsAProbe : Obligations.ReadDeviceAppendsAProbe := by
  refine ⟨fun k tag device register width order s h hbad => ?_,
    fun k tag device register width order d o r s h hdevice hlow hhigh horder hr => ?_⟩
  · refine exec_refuses rfl h ?_
    have hno : deviceNo device = none ∨ widthOk width.toNat = false ∨ Machine.orderOf order = none := by
      obtain hd | hw | hw | ho := hbad
      · exact .inl (dif_neg (by omega))
      · exact .inr (.inl (by simp [widthOk]; omega))
      · exact .inr (.inl (by simp [widthOk]; omega))
      · exact .inr (.inr (orderOf_eq_none ho))
    simp only [ruleOf, serveReadDevice]
    split
    · rename_i hd hw ho
      rw [hd, hw, ho] at hno
      simp at hno
    · rfl
  · subst hr
    have hwidth : widthOk width.toNat = true := by simp [widthOk, hlow, hhigh]
    have hrule : ruleOf (.readDevice k tag device register width order) s =
        serveReadDevice k tag device register width order s := rfl
    have hfits : ∀ hreg : (s.device d).size = 1 → register.toNat ≤ 255,
        registerFits (s.device d) register = true := registerFits_iff.mpr
    refine ⟨fun habsent => exec_refuses rfl h ?_, fun hpresent hsize hreg => exec_refuses rfl h ?_,
      fun hpresent hreg => ⟨fun hprobes => exec_refuses rfl h ?_,
        fun hprobes hfull => exec_refuses rfl h ?_, fun hprobes hroom => exec_changes rfl h ?_⟩⟩ <;>
      rw [hrule] <;> simp only [serveReadDevice, deviceNo_eq hdevice, hwidth, orderOf_eq horder]
    · simp only [habsent, Bool.not_false, if_true]
    · have hno : registerFits (s.device d) register = false := by
        rw [← Bool.not_eq_true, registerFits_iff]
        exact fun hle => absurd (hle hsize) (by omega)
      simp only [hpresent, hno, Bool.not_true, Bool.not_false, Bool.false_eq_true, if_false, if_true]
    · simp only [hpresent, hfits hreg, hprobes, Config.probeLimit, Bool.not_true,
        Bool.false_eq_true, if_false, if_true]
    · have hlimit : s.probes k ≠ Config.probeLimit := Nat.ne_of_lt hprobes
      simp only [hpresent, hfits hreg, hlimit, hasRoom_false hfull, Bool.not_true, Bool.not_false,
        Bool.false_eq_true, if_false, if_true]
    · have hlimit : s.probes k ≠ Config.probeLimit := Nat.ne_of_lt hprobes
      simp only [hpresent, hfits hreg, hlimit, (hasRoom_iff _ _).mpr hroom, append_of_room _ hroom,
        Bool.not_true, Bool.false_eq_true, if_false]
      rfl

theorem deviceOf_eq {state bus address size retries : Byte} {new : Device}
    (h : state = 0x00 ∧
        new = { isPresent := false, bus := 0, address := 0, size := 1, retries := 0 } ∨
      state = 0x01 ∧ bus.toNat < 2 ∧ address.toNat < 128 ∧ (size.toNat = 1 ∨ size.toNat = 2) ∧
        retries.toNat ≤ 3 ∧ new.isPresent = true ∧ new.bus.val = bus.toNat ∧
        new.address.toNat = address.toNat ∧ new.size = size.toNat ∧
        new.retries = retries.toNat) :
    deviceOf state bus address size retries = some new ∧
      (new.isPresent = true ↔ state = 0x01) := by
  obtain ⟨rfl, rfl⟩ | ⟨rfl, -, haddress, hsize, hretries, hpresent, hbus, ha, hs, hr⟩ := h
  · exact ⟨rfl, by decide⟩
  · have hsize' : size = 0x01 ∨ size = 0x02 :=
      hsize.imp (Messages.byte_eq_of_toNat · (by decide)) (Messages.byte_eq_of_toNat · (by decide))
    have hnew : new = {
        isPresent := true, bus := new.bus, address := BitVec.ofNat 7 address.toNat,
        size := size.toNat, retries := retries.toNat } := by
      obtain ⟨p, b, a, z, y⟩ := new
      dsimp only at hpresent ha hs hr ⊢
      rw [hpresent, hs, hr, ← ha, BitVec.ofNat_toNat, BitVec.setWidth_eq]
    refine ⟨?_, by simp [hpresent]⟩
    rw [hnew]
    simp only [deviceOf, busNo_eq hbus.symm, hsize', hretries, Nat.le_of_lt_succ haddress,
      and_self, if_true]
    rfl

theorem changesIdentity_iff {old new : Device} : changesIdentity old new = true ↔
    old.isPresent = true ∧ new.isPresent = false ∨ old.bus ≠ new.bus ∨
      old.address ≠ new.address ∨ old.size ≠ new.size := by
  simp [changesIdentity, or_assoc]

theorem addressTaken_iff {s : State} {d : DeviceNo} {r : Device} : s.addressTaken d r = true ↔
    ∃ e : DeviceNo, e ≠ d ∧ (s.device e).isPresent = true ∧ (s.device e).bus = r.bus ∧
      (s.device e).address = r.address := by
  have hall : ∀ e : DeviceNo, e ∈ allDevices := by decide
  simp only [State.addressTaken, List.any_eq_true, Bool.and_eq_true, bne_iff_ne, beq_iff_eq,
    and_assoc]
  exact ⟨fun ⟨e, _, h⟩ => ⟨e, h⟩, fun ⟨e, h⟩ => ⟨e, hall e, h⟩⟩

/-- Settles O36: a device in use keeps its identity, and an address is taken once. -/
theorem defineDeviceWritesTheRecord : Obligations.DefineDeviceWritesTheRecord := by
  intro k tag device state bus address size retries d new s h htoken hrun hdevice hnew
  have hstate : state = 0x00 ∨ state = 0x01 := hnew.imp (·.1) (·.1)
  obtain ⟨hof, hpresent⟩ := deviceOf_eq hnew
  have hrule : serveDefineDevice device state bus address size retries s =
      if s.inUse d && changesIdentity (s.device d) new then refuse s .deviceBusy
      else if new.isPresent && s.addressTaken d new then refuse s .duplicateAddress
      else answer (begin (s.setDevice d new)) .ok := by
    simp only [serveDefineDevice, hrun, deviceNo_eq hdevice, hof, ne_eq, not_true_eq_false, if_false]
  have habsent : new.isPresent = false ↔ state = 0x00 := by
    rw [← Bool.not_eq_true, hpresent]
    obtain rfl | rfl := hstate <;> decide
  refine ⟨fun huse hchange => exec_refuses rfl h (ruleOf_withToken rfl htoken ?_),
    fun hkeep => ⟨fun hpres hex => exec_refuses rfl h (ruleOf_withToken rfl htoken ?_),
      fun hfree => exec_changes rfl h (ruleOf_withToken rfl htoken ?_)⟩⟩ <;> rw [hrule]
  · rw [huse, changesIdentity_iff.mpr (hchange.imp_left (fun ⟨h1, h2⟩ => ⟨h1, habsent.mpr h2⟩))]
    rfl
  all_goals
    have hno : (s.inUse d && changesIdentity (s.device d) new) = false := by
      rw [Bool.and_eq_false_iff, ← Bool.not_eq_true (changesIdentity _ _), changesIdentity_iff,
        habsent]
      refine hkeep.imp_right fun ⟨h1, h2, h3, h4⟩ => ?_
      rintro (⟨h5, h6⟩ | h5 | h5 | h5)
      · rw [h1 h5] at h6; cases h6
      · exact h5 h2
      · exact h5 h3
      · exact h5 h4
    rw [hno]
  · rw [hpresent.mpr hpres, addressTaken_iff.mpr hex]
    rfl
  · have hnot : (new.isPresent && s.addressTaken d new) = false := by
      rw [Bool.and_eq_false_iff, habsent, ← Bool.not_eq_true, addressTaken_iff]
      exact hfree.imp_right fun hall ⟨e, h1, h2, h3, h4⟩ => hall e h1 h2 h3 h4
    rw [hnot]
    rfl

theorem speedOf_eq {speed : Byte} {v : Speed}
    (h : speed = 0x00 ∧ v = .khz100 ∨ speed = 0x01 ∧ v = .khz400 ∨ speed = 0x02 ∧ v = .mhz1) :
    speedOf speed = some v := by
  obtain ⟨rfl, rfl⟩ | ⟨rfl, rfl⟩ | ⟨rfl, rfl⟩ := h <;> rfl

/-- Settles O37: both change one engine. -/
theorem busConfigAndRecoverActOnOneEngine : Obligations.BusConfigAndRecoverActOnOneEngine := by
  refine ⟨fun k tag bus speed b v s h htoken hrun hbus hspeed => ?_,
    fun k tag bus b s h htoken hbus => ⟨fun hfault => ?_, fun hfault => ?_⟩⟩
  · refine exec_changes rfl h (ruleOf_withToken rfl htoken ?_)
    simp only [serveBusConfig, hrun, busNo_eq hbus, speedOf_eq hspeed, ne_eq, not_true_eq_false,
      if_false]
  · refine exec_changes rfl h (ruleOf_withToken rfl htoken ?_)
    simp only [serveBusRecover, hfault, busNo_eq hbus, ne_eq, not_true_eq_false, if_false]
  · refine exec_refuses rfl h (ruleOf_withToken rfl htoken ?_)
    simp only [serveBusRecover, hfault, busNo_eq hbus, ne_eq, not_false_eq_true, if_true]

/-! ### The Event Queues -/

/-- R167: what an offer makes of its client's queue. -/
theorem take_of_room {q : EventQueue} (c : Epoch) (e : Event) (h : q.records.length < 16) :
    q.take c e = { q with
      records := q.records ++ [{ event := e, sequence := q.nextSequence, stamp := c }],
      nextSequence := q.nextSequence + 1 } := if_pos h

theorem take_of_full {q : EventQueue} (c : Epoch) (e : Event) (h : 16 ≤ q.records.length) :
    q.take c e = { q with
      lost := min (q.lost + 1) 255, nextSequence := q.nextSequence + 1 } :=
  if_neg (Nat.not_lt.mpr h)

/-- Settles O44: an offer changes its client's queue alone. -/
theorem offeredRecordIsKeptOrLost : Obligations.OfferedRecordIsKeptOrLost := by
  rintro s j c e q rfl
  refine ⟨fun h => congrArg _ (take_of_room c e h), fun h _ => congrArg _ (take_of_full c e h)⟩

/-- R170: the oldest records leave. -/
theorem fetch_quiet {q : EventQueue} {taken rest : List EventRecord} {n : Nat} {c : Epoch}
    (htake : q.records.take n = taken) (hdrop : q.records.drop n = rest)
    (h : taken = [] ∨ q.lost = 0) : q.fetch n c = { q with records := rest } := by
  have hquiet : (taken.isEmpty || q.lost == 0) = true := by
    obtain h | h := h <;> simp [h]
  simp only [EventQueue.fetch, htake, hdrop, hquiet, if_true]

theorem fetch_overflow {q : EventQueue} {taken rest : List EventRecord} {n : Nat} {c : Epoch}
    (htake : q.records.take n = taken) (hdrop : q.records.drop n = rest) (hne : taken ≠ [])
    (hlost : q.lost ≠ 0) (hroom : rest.length < 16) :
    q.fetch n c = { q with
      records := rest ++ [{ event := .overflow q.lost, sequence := q.nextSequence, stamp := c }],
      lost := 0, nextSequence := q.nextSequence + 1 } := by
  have hloud : ¬ (taken.isEmpty || q.lost == 0) = true := by
    simp [hlost, hne]
  simp only [EventQueue.fetch, htake, hdrop, hloud, Bool.false_eq_true, if_false,
    take_of_room (q := { q with records := rest }) _ _ hroom]

/-- Settles O45: the answer and the queue are those of the records taken. -/
theorem fetchReturnsTheOldestRecords : Obligations.FetchReturnsTheOldestRecords := by
  rintro k tag count q s h rfl
  refine ⟨fun h1 h2 => exec_refuses rfl h ?_, fun taken rest hcount hrecords hlength => ?_⟩
  · simp only [ruleOf, serveFetch, h1, h2, ne_eq, not_false_eq_true, and_self, if_true]
  have hlegal : ¬ (count ≠ 0x01 ∧ count ≠ 0x02) := by tauto
  have htake : (s.eventQueue k).records.take count.toNat = taken := by
    rw [hrecords]
    obtain hlen | ⟨hlen, rfl⟩ := hlength
    · rw [← hlen, List.take_left]
    · rw [List.append_nil, List.take_of_length_le (by omega)]
  have hdrop : (s.eventQueue k).records.drop count.toNat = rest := by
    rw [hrecords]
    obtain hlen | ⟨hlen, rfl⟩ := hlength
    · rw [← hlen, List.drop_left]
    · rw [List.append_nil, List.drop_of_length_le (by omega)]
  refine ⟨fun hquiet => exec_changes rfl h ?_, fun hne hlost hroom => exec_changes rfl h ?_⟩
  · simp only [ruleOf, serveFetch, if_neg hlegal, htake, fetch_quiet htake hdrop hquiet]
    rfl
  · simp only [ruleOf, serveFetch, if_neg hlegal, htake,
      fetch_overflow htake hdrop hne hlost hroom, List.length_append, List.length_singleton]
    rfl

/-- The bits of a SUBSCRIBE's set byte. -/
theorem extract_bit (set : Byte) (j : Nat) :
    (set.extractLsb' j 1 == 1#1) = set.getLsbD j := by
  cases h : set.getLsbD j
  · rw [beq_eq_false_iff_ne]
    intro hx
    have := congrArg (fun v : BitVec 1 => v.getLsbD 0) hx
    simp [h] at this
  · rw [beq_iff_eq]
    ext i hi
    have : i = 0 := by omega
    subst this
    simp [h]

theorem subscriptionOk_iff {set divider : Byte} : subscriptionOk set divider = true ↔
    set.toNat < 8 ∧ (set.getLsbD 2 = true → divider ≠ 0x00) := by
  have hhigh : set.extractLsb' 3 5 = 0#5 ↔ set.toNat < 8 := by
    rw [← BitVec.toNat_inj]
    have := set.isLt
    simp only [BitVec.extractLsb'_toNat, BitVec.toNat_ofNat, Nat.shiftRight_eq_div_pow]
    omega
  simp only [subscriptionOk, extract_bit, Bool.and_eq_true, beq_iff_eq, hhigh, Bool.not_eq_true',
    Bool.and_eq_false_iff, beq_eq_false_iff_ne]
  cases set.getLsbD 2 <;> simp

/-- Settles O46: the queue takes the new subscriptions, the answer the old ones. -/
theorem subscribeReplacesTheSubscriptions : Obligations.SubscribeReplacesTheSubscriptions := by
  rintro k tag set divider q s h rfl
  refine ⟨fun hbad => exec_refuses rfl h ?_, fun hset hdivider => exec_changes rfl h ?_⟩
  · have hno : ¬ subscriptionOk set divider = true := by
      rw [subscriptionOk_iff]
      rintro ⟨h1, h2⟩
      obtain h | ⟨h3, h4⟩ := hbad
      · omega
      · exact h2 h3 h4
    simp only [ruleOf, serveSubscribe, hno, Bool.not_false, if_true]
  · have hok := subscriptionOk_iff.mpr ⟨hset, hdivider⟩
    have hbyte : setByte (s.eventQueue k) = BitVec.ofNat 8
        ((if (s.eventQueue k).sched then 1 else 0) + (if (s.eventQueue k).bus then 2 else 0) +
          (if (s.eventQueue k).mark then 4 else 0)) := by
      unfold setByte
      cases (s.eventQueue k).sched <;> cases (s.eventQueue k).bus <;>
        cases (s.eventQueue k).mark <;> rfl
    simp only [ruleOf, serveSubscribe, hok, Bool.not_true, Bool.false_eq_true, if_false, hbyte,
      EventQueue.subscribe, extract_bit]
    rfl

end Sys2Proof.Requests
end


section
/-! PROOFS. Requests of the Batch Contexts, and WRITE_NOW: staging, sealing and withdrawing. -/

set_option Elab.async false

namespace Sys2Proof.BatchRequests

open Sys2Proof Sys2Proof.Machine Sys2Proof.Commands Sys2Proof.Requests

/-! ### Lists with one element apart -/

theorem find?_split {α : Type} {p : α → Bool} {front back : List α} {x : α}
    (hfront : ∀ y ∈ front, p y = false) (hx : p x = true) :
    (front ++ x :: back).find? p = some x := by
  rw [List.find?_append, List.find?_eq_none.mpr (fun y hy => by simp [hfront y hy])]
  simp [hx]

theorem map_replace {i : SlotNo} {v : Value} {front back : List Staged} {old : Staged}
    (hold : old.slot = i) (hother : ∀ x ∈ front ++ back, x.slot ≠ i) :
    (front ++ old :: back).map (fun r => if r.slot == i then { r with value := v } else r) =
      front ++ { old with value := v } :: back := by
  have hsame : ∀ l : List Staged, (∀ x ∈ l, x.slot ≠ i) →
      l.map (fun r => if r.slot == i then { r with value := v } else r) = l := fun l hl =>
    (List.map_congr_left (fun x hx => by simp [hl x hx])).trans (List.map_id l)
  rw [List.map_append, List.map_cons, hsame front (fun x hx => hother x (by simp [hx])),
    hsame back (fun x hx => hother x (by simp [hx])), if_pos (by simp [hold])]

theorem filter_remove {i : SlotNo} {front back : List Staged} {old : Staged} (hold : old.slot = i)
    (hother : ∀ x ∈ front ++ back, x.slot ≠ i) :
    (front ++ old :: back).filter (fun r => r.slot != i) = front ++ back := by
  have hkeep : (front ++ back).filter (fun r => r.slot != i) = front ++ back :=
    List.filter_eq_self.mpr (fun x hx => by simp [hother x hx])
  rw [List.filter_append, List.filter_cons_of_neg (by simp [hold]), ← List.filter_append, hkeep]

/-! ### OPEN (R37, R39) -/

theorem idLive_iff {s : State} {k : Client} {id : Nat} : s.idLive k id = true ↔
    ∃ m : Fin 4, (s.context k m).state ≠ .free ∧ (s.context k m).id = id := by
  unfold State.idLive
  rw [Option.isSome_iff_ne_none, ne_eq, findContext_eq_none]
  simp

/-- The ids that OPEN looks at follow each other, and the first four differ. -/
theorem idAfter_iterate_injective (id : Nat) {a b : Nat} (ha : a < 4) (hb : b < 4)
    (h : idAfter^[a + 1] id = idAfter^[b + 1] id) : a = b := by
  interval_cases a <;> interval_cases b <;>
    simp only [Function.iterate_succ, Function.iterate_zero, Function.comp_apply, id_eq,
      idAfter] at h ⊢ <;> grind

/-- Four contexts, one of them FREE, hold at most three ids. -/
theorem exists_freshIterate {s : State} {k : Client} {n : Fin 4} (hfree : (s.context k n).state = .free) :
    ∃ j < 4, s.idLive k (idAfter^[j + 1] (s.previousId k)) = false := by
  by_contra hall
  push Not at hall
  have hlive : ∀ j : Fin 4, ∃ m : Fin 4, (s.context k m).state ≠ .free ∧
      (s.context k m).id = idAfter^[j.val + 1] (s.previousId k) := fun j =>
    idLive_iff.mp (by simpa using hall j j.isLt)
  choose f hf hid using hlive
  have hinj : Function.Injective f := fun a b hab =>
    Fin.ext (idAfter_iterate_injective _ a.isLt b.isLt (by rw [← hid, ← hid, hab]))
  obtain ⟨j, hj⟩ := (Finite.injective_iff_surjective.mp hinj) n
  exact hf j (hj ▸ hfree)

/-- R37: the id that OPEN takes is the first one that is not live. -/
theorem freshId_eq {s : State} {k : Client} {j tries id : Nat} (hj : j ≤ tries)
    (hfresh : s.idLive k (idAfter^[j + 1] id) = false)
    (hbefore : ∀ i < j, s.idLive k (idAfter^[i + 1] id) = true) :
    s.freshId k tries id = idAfter^[j + 1] id := by
  induction tries generalizing j id with
  | zero =>
    obtain rfl : j = 0 := by omega
    rfl
  | succ tries ih =>
    cases j with
    | zero =>
      have h0 : s.idLive k (idAfter id) = false := hfresh
      simp [State.freshId, h0]
    | succ j =>
      have h0 : s.idLive k (idAfter id) = true := hbefore 0 (by omega)
      rw [State.freshId, if_pos h0, ih (j := j) (by omega) hfresh
        (fun i hi => hbefore (i + 1) (by omega))]
      rfl

theorem targetKindOf_eq {target : Byte} {kind : TargetKind}
    (h : target = 0x00 ∧ kind = .next ∨ target = 0x01 ∧ kind = .absolute) :
    targetKindOf target = some kind := by
  obtain ⟨rfl, rfl⟩ | ⟨rfl, rfl⟩ := h <;> rfl

theorem policyOf_eq {policy : Byte} {pol : Policy}
    (h : policy = 0x00 ∧ pol = .strict ∨ policy = 0x01 ∧ pol = .slip) :
    policyOf policy = some pol := by
  obtain ⟨rfl, rfl⟩ | ⟨rfl, rfl⟩ := h <;> rfl

/-- Settles O18: the least iterate of the previous id that is not live is the new id. -/
theorem openTakesAFreshContext : Obligations.OpenTakesAFreshContext := by
  intro k tag target policy epoch kind pol n s h htarget hpolicy hnone hfree hbefore
  classical
  have hex := exists_freshIterate hfree
  obtain ⟨hj, hfresh⟩ := Nat.find_spec hex
  have hlive : ∀ i < Nat.find hex, s.idLive k (idAfter^[i + 1] (s.previousId k)) = true := by
    intro i hi
    have := Nat.find_min hex hi
    simpa [show i < 4 by omega] using this
  refine ⟨Nat.find hex, hj, fun m hm hid => ?_, fun i hi => idLive_iff.mp (hlive i hi), ?_⟩
  · rw [idLive_iff.mpr ⟨m, hm, hid⟩] at hfresh
    cases hfresh
  · have hcontext : s.findContext k (fun b => b.state == .free) = some n :=
      findContext_eq (by simp [hfree]) (fun m hm => by simp [hbefore m hm])
    refine exec_changes rfl h ?_
    simp only [ruleOf, serveOpen, openContext_eq_none.mpr hnone, hcontext, targetKindOf_eq htarget,
      policyOf_eq hpolicy, freshId_eq (Nat.le_of_lt_succ hj) hfresh hlive]
    rfl

/-! ### Admissible values (R4, R10) -/

theorem extract_toNat {w : Nat} (v : BitVec w) (start len : Nat) :
    (v.extractLsb' start len).toNat = v.toNat / 2 ^ start % 2 ^ len := by
  rw [BitVec.extractLsb'_toNat, Nat.shiftRight_eq_div_pow]

/-- R10: the values of a form slot are those of a mode, a polarity, a divisor code and a phase. -/
theorem formOk_iff (v : Value) : formOk v = true ↔
    ∃ (mode : Fin 4) (polarity : Fin 2) (code : Fin 5) (phase : Nat), phase < 2 ^ code.val ∧
      v.toNat = mode.val + 2 ^ 4 * polarity.val + 2 ^ 8 * code.val + 2 ^ 12 * phase := by
  have hlt := v.isLt
  simp only [formOk, Bool.and_eq_true, beq_iff_eq, decide_eq_true_eq, ← BitVec.toNat_inj,
    extract_toNat, BitVec.toNat_ofNat, divisorOf]
  constructor
  · rintro ⟨⟨⟨⟨⟨h16, h11⟩, h5⟩, h2⟩, hcode⟩, hphase⟩
    refine ⟨⟨v.toNat % 4, by omega⟩, ⟨v.toNat / 16 % 2, by omega⟩, ⟨v.toNat / 2 ^ 8 % 2 ^ 3, by omega⟩,
      v.toNat / 2 ^ 12 % 2 ^ 4, hphase, ?_⟩
    dsimp only
    omega
  · rintro ⟨mode, polarity, code, phase, hphase, hv⟩
    have hmode := mode.isLt
    have hpolarity := polarity.isLt
    have hsmall : phase < 16 := by
      have : 2 ^ code.val ≤ 2 ^ 4 := Nat.pow_le_pow_right (by omega) (by omega)
      omega
    have hcode : v.toNat / 2 ^ 8 % 2 ^ 3 = code.val := by omega
    have hphase' : v.toNat / 2 ^ 12 % 2 ^ 4 = phase := by omega
    rw [hcode, hphase']
    refine ⟨⟨⟨⟨⟨?_, ?_⟩, ?_⟩, ?_⟩, ?_⟩, hphase⟩ <;> omega

theorem isForm_iff (i : SlotNo) : isForm i = true ↔ 232 ≤ i.val ∧ i.val % 2 = 1 := by
  simp [isForm, isLocal]

theorem admissible_iff {s : State} {i : SlotNo} {v : Value} : s.admissible i v = true ↔
    (s.slot i).min.toNat ≤ v.toNat ∧ v.toNat ≤ (s.slot i).max.toNat ∧
      (isForm i = true → formOk v = true) := by
  simp only [State.admissible, Bool.and_eq_true, decide_eq_true_eq, Bool.or_eq_true,
    Bool.not_eq_true', and_assoc, ← Bool.not_eq_true (isForm i), imp_iff_not_or]

theorem admissible_general {s : State} {i : SlotNo} (v : Value) (hi : i.val < 232) :
    s.admissible i v = true ↔ (s.slot i).min.toNat ≤ v.toNat ∧ v.toNat ≤ (s.slot i).max.toNat := by
  have hform : ¬ isForm i = true := by rw [isForm_iff]; omega
  rw [admissible_iff]
  tauto

theorem admissible_edge {s : State} {i : SlotNo} {o : Fin 12} (v : Value)
    (hd : LocalDescriptor i (s.slot i)) (hi : i.val = 232 + 2 * o.val) :
    s.admissible i v = true := by
  have hform : ¬ isForm i = true := by rw [isForm_iff]; omega
  obtain ⟨-, -, -, -, -, -, -, hmin, -, hedge, -⟩ := hd
  obtain ⟨-, hmax⟩ := hedge (Bool.not_eq_true _ ▸ hform)
  rw [admissible_iff, hmin, hmax]
  have := v.isLt
  exact ⟨Nat.zero_le _, Nat.le_of_lt_succ this, fun h => absurd h hform⟩

theorem admissible_form {s : State} {i : SlotNo} {o : Fin 12} (v : Value)
    (hd : LocalDescriptor i (s.slot i)) (hi : i.val = 233 + 2 * o.val) :
    s.admissible i v = true ↔
      ∃ (mode : Fin 4) (polarity : Fin 2) (code : Fin 5) (phase : Nat), phase < 2 ^ code.val ∧
        v.toNat = mode.val + 2 ^ 4 * polarity.val + 2 ^ 8 * code.val + 2 ^ 12 * phase := by
  have hform : isForm i = true := by rw [isForm_iff]; omega
  obtain ⟨-, -, -, -, -, -, -, hmin, -, -, hform'⟩ := hd
  obtain ⟨-, hmax⟩ := hform' hform
  rw [admissible_iff, hmin, hmax, formOk_iff]
  refine ⟨fun h => h.2.2 hform, fun h => ⟨by simp, ?_, fun _ => h⟩⟩
  obtain ⟨mode, polarity, code, phase, hphase, hv⟩ := h
  have hsmall : phase < 16 := by
    have : 2 ^ code.val ≤ 2 ^ 4 := Nat.pow_le_pow_right (by omega) (by omega)
    omega
  have hmax : (0xF413 : Value).toNat = 62483 := rfl
  omega

/-! ### STAGE (R40, R41) -/

theorem heldByOther_of_not_free {s : State} {k : Client} {i : SlotNo} (h : ¬ FreeFor k s i) :
    s.heldByOther k i = true := by
  rw [← ClaimTable.heldByOther_eq_false_iff] at h
  exact Bool.not_eq_false _ ▸ h

/-- R40 steps 2 to 5, in their order. -/
theorem stageRefusal_cases (s : State) (k : Client) (i : SlotNo) (v : Value) :
    ((s.slot i).defined = false → s.stageRefusal k i v = some .undefinedSlot) ∧
    ((s.slot i).defined = true → (s.slot i).cls ≠ .epoch →
      s.stageRefusal k i v = some .wrongClass) ∧
    ((s.slot i).defined = true → (s.slot i).cls = .epoch → s.admissible i v = false →
      s.stageRefusal k i v = some .outOfRange) ∧
    ((s.slot i).defined = true → (s.slot i).cls = .epoch → s.admissible i v = true →
      ¬ FreeFor k s i → s.stageRefusal k i v = some .notOwner) ∧
    ((s.slot i).defined = true → (s.slot i).cls = .epoch → s.admissible i v = true →
      FreeFor k s i → s.stageRefusal k i v = none) := by
  refine ⟨fun h1 => ?_, fun h1 h2 => ?_, fun h1 h2 h3 => ?_, fun h1 h2 h3 h4 => ?_,
    fun h1 h2 h3 h4 => ?_⟩
  · simp [State.stageRefusal, h1]
  · simp [State.stageRefusal, h1, h2]
  · simp [State.stageRefusal, h1, h2, h3]
  · simp [State.stageRefusal, h1, h2, h3, heldByOther_of_not_free h4]
  · simp [State.stageRefusal, h1, h2, h3, ClaimTable.heldByOther_eq_false_iff.mpr h4]

theorem ruleOf_stage {k : Client} {tag slot : Byte} {value : Value} {n : Fin 4} {s : State}
    (ho : OpenAt k n s) {status : Status}
    (h : stageOne s k (s.context k n) (slotNo slot) value = .refused status) :
    ruleOf (.stage k tag slot value) s = refuse s status := by
  simp only [ruleOf, serveStage, openContext_eq ho, h]

/-- Settles O19: the checks of R40 in order, and then the list of R41. -/
theorem stageKeepsOneRecordPerSlot : Obligations.StageKeepsOneRecordPerSlot := by
  refine ⟨fun i v s => ⟨admissible_general v, fun o hd =>
      ⟨admissible_edge v hd, admissible_form v hd⟩⟩,
    fun k tag slot value r s h hr => ⟨fun hnone => exec_refuses rfl h ?_, fun n ho => ?_⟩,
    fun k tag slot value n b r s h ho hb hr hdefined hcls hadmissible hfree => ?_⟩
  · simp only [ruleOf, serveStage, openContext_eq_none.mpr hnone]
  · subst hr
    have hrefused : ∀ status, s.stageRefusal k (slotNo slot) value = some status →
        exec (.stage k tag slot value) s = .next (endService k tag 0x31 ⟨status, []⟩ s) :=
      fun status hstatus => exec_refuses rfl h (ruleOf_stage ho (by rw [stageOne, hstatus]))
    obtain ⟨h1, h2, h3, h4, -⟩ := stageRefusal_cases s k (slotNo slot) value
    exact ⟨fun a => hrefused _ (h1 a), fun a b => hrefused _ (h2 a b),
      fun a b c => hrefused _ (h3 a b c), fun a b c d => hrefused _ (h4 a b c d)⟩
  · subst hb hr
    have hpass : stageOne s k (s.context k n) (slotNo slot) value =
        stageInto s (s.context k n) (slotNo slot) value := by
      rw [stageOne, (stageRefusal_cases s k _ _).2.2.2.2 hdefined hcls hadmissible hfree]
    have hnew : (∀ x ∈ (s.context k n).records, x.slot ≠ slotNo slot) →
        (s.context k n).records.find? (fun r => r.slot == slotNo slot) = none := fun hno =>
      List.find?_eq_none.mpr (fun x hx => by simp [hno x hx])
    refine ⟨fun front back old hrecords hold hother => ⟨_, rfl, exec_changes rfl h ?_⟩,
      fun hno hroom => ⟨_, rfl, exec_changes rfl h ?_⟩,
      fun hno hfull => exec_refuses rfl h (ruleOf_stage ho ?_)⟩
    · have hfind : (s.context k n).records.find? (fun r => r.slot == slotNo slot) = some old :=
        hrecords ▸ find?_split (fun y hy => by simp [hother y (by simp [hy])]) (by simp [hold])
      simp only [ruleOf, serveStage, openContext_eq ho, hpass, stageInto, hfind]
      rw [hrecords, map_replace hold hother]
      rfl
    · have hlen : (s.context k n).records.length < Config.batchRecords := hroom
      simp only [ruleOf, serveStage, openContext_eq ho, hpass, stageInto, hnew hno, hlen, if_true]
      rfl
    · have hlen : ¬ (s.context k n).records.length < Config.batchRecords := Nat.not_lt.mpr hfull
      simp only [hpass, stageInto, hnew hno, hlen, if_false]

/-! ### UNSTAGE, ABORT and CANCEL (R43, R54) -/

theorem sealedContext_eq {s : State} {r : BatchRef} {n : Fin 4}
    (hsealed : (s.context r.client n).isSealed = true) (hid : (s.context r.client n).id = r.id)
    (hbefore : ∀ m : Fin 4, m < n → (s.context r.client m).isSealed = false ∨
      (s.context r.client m).id ≠ r.id) : s.sealedContext r = some n := by
  refine findContext_eq (by simp [hsealed, hid]) fun m hm => ?_
  obtain h | h := hbefore m hm <;> simp [h]

/-- Settles O21: each withdraws what it names. -/
theorem batchesAreWithdrawnByRequest : Obligations.BatchesAreWithdrawnByRequest := by
  refine ⟨fun k tag slot n b front back old s h ho hb hrecords hold hother => exec_changes rfl h ?_,
    fun k tag n s h ho => exec_changes rfl h ?_,
    fun k tag id n r s h hr hid hbefore => ?_⟩
  · subst hb
    have hfind : (s.context k n).records.find? (fun r => r.slot == slotNo slot) = some old :=
      hrecords ▸ find?_split (fun y hy => by simp [hother y (by simp [hy])]) (by simp [hold])
    simp only [ruleOf, serveUnstage, openContext_eq ho, hfind]
    rw [hrecords, filter_remove hold hother]
    rfl
  · simp only [ruleOf, serveAbort, openContext_eq ho]
    rfl
  · subst hr
    have hcontext : (s.context k n).isSealed = true →
        s.sealedContext { client := k, id := id.toNat } = some n := fun hsealed =>
      sealedContext_eq (r := { client := k, id := id.toNat }) hsealed hid hbefore
    refine ⟨fun harmed => exec_changes rfl h ?_, fun hreleasing => exec_refuses rfl h ?_⟩
    · simp only [ruleOf, serveCancel, hcontext (by simp [Batch.isSealed, harmed]), harmed,
        reduceCtorEq, if_false]
      rfl
    · simp only [ruleOf, serveCancel, hcontext (by simp [Batch.isSealed, hreleasing]), hreleasing,
        if_true]

/-! ### SEAL (R45 to R47) -/

/-- Settles O22: the table of R46. -/
theorem targetResolutionFollowsTheTable : Obligations.TargetResolutionFollowsTheTable := by
  refine ⟨fun e pol m c => rfl, fun e c m d hd => ?_⟩
  have hdistance : distance c e = d := hd.symm
  refine ⟨fun hout pol => ?_, fun hlow hlate hhigh => ?_, fun hlow hhigh pol => ?_⟩
  · exact if_pos (by rw [hdistance]; exact hout)
  · have hin : ¬ (d = 0 ∨ Config.horizon < d) := by rw [Config.horizon]; omega
    constructor <;> simp only [resolveTarget, hdistance, if_neg hin, if_pos hlate]
  · have hin : ¬ (d = 0 ∨ Config.horizon < d) := by rw [Config.horizon]; omega
    simp only [resolveTarget, hdistance, if_neg hin, if_neg (Nat.not_lt.mpr hlow)]

/-- R47 step 1: positions count on from the first. -/
theorem pendingList_eq (s : State) (r : BatchRef) (t : Epoch) (position : Nat) (l : List Staged) :
    pendingList s r t position l = l.mapIdx (fun j x => pendingOf s r t (position + j) x) := by
  induction l generalizing position with
  | nil => rfl
  | cons x l ih =>
    rw [pendingList, ih, List.mapIdx_cons]
    simp only [Nat.add_zero, Nat.add_right_comm position 1, Nat.add_assoc]

section
variable {k : Client} {n : Fin 4} {s : State}

theorem find?_defined {l : List Staged} (h : ∀ x ∈ l, (s.slot x.slot).defined = true) :
    l.find? (fun x => !(s.slot x.slot).defined) = none :=
  List.find?_eq_none.mpr (fun x hx => by simp [h x hx])

theorem find?_free {l : List Staged} (h : ∀ x ∈ l, FreeFor k s x.slot) :
    l.find? (fun x => s.heldByOther k x.slot) = none :=
  List.find?_eq_none.mpr (fun x hx => by simp [ClaimTable.heldByOther_eq_false_iff.mpr (h x hx)])

theorem conflicts_iff {t : Epoch} {x : Staged} :
    s.store.any (fun y => y.slot == x.slot && y.target == t) = true ↔
      ∃ y ∈ s.store, y.slot = x.slot ∧ y.target = t := by
  simp

theorem find?_conflict {t : Epoch} {l : List Staged}
    (h : ∀ x ∈ l, ∀ y ∈ s.store, y.slot = x.slot → y.target ≠ t) :
    l.find? (fun x => s.store.any (fun y => y.slot == x.slot && y.target == t)) = none := by
  refine List.find?_eq_none.mpr (fun x hx hc => ?_)
  obtain ⟨y, hy, hslot, htarget⟩ := conflicts_iff.mp hc
  exact h x hx y hy hslot htarget

/-- A SEAL past the checks of its slots is judged by its target. -/
theorem serveSeal_target (ho : OpenAt k n s) (hne : (s.context k n).records ≠ [])
    (hslots : ∀ x ∈ (s.context k n).records, (s.slot x.slot).defined = true ∧ FreeFor k s x.slot)
    {res : Resolution} (hres : resolveTarget (s.context k n).kind (s.context k n).epoch
      (s.context k n).policy (s.context k n).maxLead s.gen.c = res) :
    serveSeal k s = match (generalizing := false) res with
      | .outOfHorizon => refuse s .outOfHorizon (halfBytes s.gen.c)
      | .tooLate => refuse s .tooLate (halfBytes s.gen.c)
      | .target t slipped =>
        match (s.context k n).records.find? (fun x =>
            s.store.any (fun y => y.slot == x.slot && y.target == t)) with
        | some x => refuse s .conflict [byteOf x.slot.val]
        | none =>
          if Config.storePlaces < s.store.length + (s.context k n).records.length then
            refuse s .storeFull [byteOf (Config.storePlaces - s.store.length)]
          else
            answer (begin (sealTaken k n t slipped s)) .ok
              ([byteOf (s.context k n).id] ++ halfBytes t ++ [flagByte slipped]) := by
  simp only [serveSeal, openContext_eq ho, hne, if_false,
    find?_defined (fun x hx => (hslots x hx).1), find?_free (fun x hx => (hslots x hx).2), hres] <;>
    cases res <;> rfl

end

/-- Settles O23: a SEAL past every check moves the list. -/
theorem sealMovesTheBatchIntoTheStore : Obligations.SealMovesTheBatchIntoTheStore := by
  intro k tag n b r t slipped s h ho hb hr hne hslots htarget hconflict hroom
  subst hb hr
  have hres : resolveTarget (s.context k n).kind (s.context k n).epoch (s.context k n).policy
      (s.context k n).maxLead s.gen.c = .target t slipped := by
    obtain ⟨htable, habsolute⟩ := targetResolutionFollowsTheTable
    obtain ⟨-, hslip, hontime⟩ := habsolute (s.context k n).epoch s.gen.c (s.context k n).maxLead _ rfl
    obtain ⟨hk, rfl, rfl⟩ | ⟨hk, rfl, rfl, hlow, hhigh⟩ | ⟨hk, hp, rfl, rfl, hlow, hlate, hhigh⟩ :=
      htarget <;> rw [hk]
    · exact htable _ _ _ _
    · exact hontime hlow hhigh _
    · rw [hp]; exact (hslip hlow hlate hhigh).2
  have hfits : ¬ Config.storePlaces < s.store.length + (s.context k n).records.length :=
    Nat.not_lt.mpr hroom
  refine exec_changes rfl h ?_
  simp only [ruleOf, serveSeal_target ho hne hslots hres, find?_conflict hconflict, if_neg hfits,
    sealTaken, pendingList_eq, pendingOf, Nat.add_comm 1]
  rfl

/-- Settles O24: the checks of R45 in their order. -/
theorem sealIsRefusedWhole : Obligations.SealIsRefusedWhole := by
  refine ⟨fun k tag s h hnone => exec_refuses rfl h ?_, fun k tag n b d s h ho hb hd => ?_⟩
  · simp only [ruleOf, serveSeal, openContext_eq_none.mpr hnone]
  subst hb
  refine ⟨fun hempty => exec_refuses rfl h ?_,
    fun front back x hrecords hx hfront => exec_refuses rfl h ?_,
    fun front back x j hrecords hdefined hj hjk hfront => exec_refuses rfl h ?_,
    fun hne hslots => ?_⟩
  · simp only [ruleOf, serveSeal, openContext_eq ho, hempty, if_true]
  · have hne : (s.context k n).records ≠ [] := by simp [hrecords]
    have hfind : (s.context k n).records.find? (fun x => !(s.slot x.slot).defined) = some x :=
      hrecords ▸ find?_split (fun y hy => by simp [hfront y hy]) (by simp [hx])
    simp only [ruleOf, serveSeal, openContext_eq ho, hne, if_false, hfind]
    rfl
  · have hne : (s.context k n).records ≠ [] := by simp [hrecords]
    have hfind : (s.context k n).records.find? (fun x => s.heldByOther k x.slot) = some x :=
      hrecords ▸ find?_split
        (fun y hy => ClaimTable.heldByOther_eq_false_iff.mpr (hfront y hy))
        (ClaimTable.heldByOther_of_owner hj hjk)
    simp only [ruleOf, serveSeal, openContext_eq ho, hne, if_false, find?_defined hdefined, hfind]
    rfl
  · obtain ⟨-, habsolute⟩ := targetResolutionFollowsTheTable
    obtain ⟨hout, hlate, -⟩ := habsolute (s.context k n).epoch s.gen.c (s.context k n).maxLead d hd
    refine ⟨fun hk hbad => exec_refuses rfl h ?_,
      fun hk hp hlow hm hhigh => exec_refuses rfl h ?_, fun t slipped hres =>
        ⟨fun front back x hrecords hx hfront => exec_refuses rfl h ?_,
          fun hconflict hfull => exec_refuses rfl h ?_⟩⟩
    · have hres : resolveTarget (s.context k n).kind (s.context k n).epoch (s.context k n).policy
          (s.context k n).maxLead s.gen.c = .outOfHorizon := hk ▸ hout hbad _
      exact serveSeal_target ho hne hslots hres
    · have hres : resolveTarget (s.context k n).kind (s.context k n).epoch (s.context k n).policy
          (s.context k n).maxLead s.gen.c = .tooLate := hp ▸ hk ▸ (hlate hlow hm hhigh).1
      exact serveSeal_target ho hne hslots hres
    · have hfind : (s.context k n).records.find? (fun x =>
          s.store.any (fun y => y.slot == x.slot && y.target == t)) = some x :=
        hrecords ▸ find?_split
          (fun z hz => by
            rw [← Bool.not_eq_true, conflicts_iff]
            rintro ⟨y, hy, hslot, htarget⟩
            exact hfront z hz y hy hslot htarget)
          (conflicts_iff.mpr hx)
      simp only [ruleOf, serveSeal_target ho hne hslots hres, hfind]
      rfl
    · have hno : Config.storePlaces < s.store.length + (s.context k n).records.length := hfull
      simp only [ruleOf, serveSeal_target ho hne hslots hres, find?_conflict hconflict, if_pos hno]
      rfl

/-! ### WRITE_NOW (R16, R111, R112) -/

theorem find?_waits_none {s : State} {b : BusNo} {i : SlotNo}
    (h : ∀ x ∈ s.queue b, x.waitsFor i = false) : (s.queue b).find? (·.waitsFor i) = none :=
  List.find?_eq_none.mpr (fun x hx => by simp [h x hx])

theorem supersede_none {s : State} {b : BusNo} {i : SlotNo}
    (h : ∀ x ∈ s.queue b, x.waitsFor i = false) : supersede b i (begin s) = begin s := by
  simp only [supersede, begin_st, find?_waits_none h]

/-- R111, R112: the WAITING entry for the slot leaves its place and its client is told. -/
theorem supersede_client {s : State} {b : BusNo} {i : SlotNo} {front back : List Entry} {old : Entry}
    {j : Client} {tag : Byte} (hqueue : s.queue b = front ++ old :: back)
    (hfront : ∀ x ∈ front, x.waitsFor i = false) (hold : old.waitsFor i = true)
    (horigin : old.origin = .client j tag) :
    supersede b i (begin s) = offerTo j (.writeDone tag i .superseded)
      (begin (s.setQueue b (front ++ back))) := by
  have hfind : (s.queue b).find? (·.waitsFor i) = some old :=
    hqueue ▸ find?_split hfront hold
  have herase : (s.queue b).eraseP (·.waitsFor i) = front ++ back := by
    rw [hqueue, List.eraseP_append_right _ (fun x hx => by simp [hfront x hx]),
      List.eraseP_cons_of_pos (p := fun x : Entry => x.waitsFor i) hold]
  simp only [supersede, hfind, tellSuperseded, horigin, Work.update, herase, begin]

/-- Settles O11: the checks of R16 pass, and R111 admits the entry or the queue is full. -/
theorem writeNowEntersTheQueue : Obligations.WriteNowEntersTheQueue := by
  intro k tag slot value d b r e s h hr hdefined hdevice hb hcls hadmissible hfree he
  subst hr hb
  have hepoch : ¬ (s.slot (slotNo slot)).cls = .epoch := by
    obtain hc | ⟨hc, -⟩ := hcls <;> simp [hc]
  have hstandby : ¬ ((s.slot (slotNo slot)).cls = .standby ∧ s.gen.run ≠ .stopped) := by
    obtain hc | ⟨-, hrun⟩ := hcls
    · simp [hc]
    · simp [hrun]
  have hentry : slotEntry .now (slotNo slot) (s.slot (slotNo slot)) d value (.client k tag) = e :=
    he.symm
  have hrule : ruleOf (.writeNow k tag slot value) s =
      if (!s.hasRoom (s.device d).bus &&
          !(s.queue (s.device d).bus).any (·.waitsFor (slotNo slot))) = true then
        refuse s .queueFull
      else answer ((supersede (s.device d).bus (slotNo slot) (begin s)).update
        (append (s.device d).bus e)) .accepted := by
    simp only [ruleOf, serveWriteNow, hdefined, hepoch, hstandby, hadmissible, hdevice, hentry,
      ClaimTable.heldByOther_eq_false_iff.mpr hfree, Bool.not_true, Bool.false_eq_true, if_false]
  have hany : (∀ x ∈ s.queue (s.device d).bus, x.waitsFor (slotNo slot) = false) →
      (s.queue (s.device d).bus).any (·.waitsFor (slotNo slot)) = false := fun hno =>
    List.any_eq_false.mpr (fun x hx => by simp [hno x hx])
  refine ⟨fun hno hroom => exec_changes rfl h ?_, fun hno hfull => exec_refuses rfl h ?_,
    fun front back old j oldTag hqueue hlen hfront hkind hbus hslot horigin => ?_⟩
  · rw [hrule, (hasRoom_iff _ _).mpr hroom, if_neg (by simp), supersede_none hno]
    exact congrArg (fun t => answer (begin t) .accepted) (append_of_room e hroom)
  · rw [hrule, hasRoom_false hfull, hany hno, if_pos (by simp)]
  · have hold : old.waitsFor (slotNo slot) = true := by
      simp [Entry.waitsFor, hkind, hbus, hslot]
    have hsome : (s.queue (s.device d).bus).any (·.waitsFor (slotNo slot)) = true :=
      List.any_eq_true.mpr ⟨old, by simp [hqueue], hold⟩
    have hroom : ((s.setQueue (s.device d).bus (front ++ back)).queue (s.device d).bus).length < 32 := by
      rw [State.setQueue_queue, if_pos rfl, List.length_append]
      exact hlen
    have happend : append (s.device d).bus e (s.setQueue (s.device d).bus (front ++ back)) =
        s.setQueue (s.device d).bus (front ++ back ++ [e]) := by
      rw [append_of_room e hroom, State.setQueue_queue, if_pos rfl, State.setQueue_setQueue]
    rw [exec_answers rfl h (hrule.trans (if_neg (by simp [hsome]))),
      supersede_client hqueue hfront hold horigin]
    have hfinish : ((offerTo j (.writeDone oldTag (slotNo slot) .superseded)
        (begin (s.setQueue (s.device d).bus (front ++ back)))).update
          (append (s.device d).bus e)).finish =
        deliverOne (append (s.device d).bus e (s.setQueue (s.device d).bus (front ++ back)))
          { client := j, stamp := s.gen.c,
            event := .writeDone oldTag (slotNo slot) .superseded } := rfl
    rw [hfinish, happend]
    rfl

end Sys2Proof.BatchRequests
end


section
/-! PROOFS. STAGE_RUN: the batch after the first slots of a run, in closed form, and the run slot by
slot. -/

set_option Elab.async false

namespace Sys2Proof.StageRun

open Sys2Proof Sys2Proof.Machine Sys2Proof.Commands Sys2Proof.Requests Sys2Proof.BatchRequests

/-! ### The batch after the first slots of a run -/

/-- The `j`-th slot of a run. -/
def runSlot (first : Byte) (j : Nat) : SlotNo := slotNo (first + BitVec.ofNat 8 j)

theorem runSlot_val {first : Byte} {j : Nat} (h : first.toNat + j < 256) :
    (runSlot first j).val = first.toNat + j := by
  have hj : j < 256 := by omega
  change (first + BitVec.ofNat 8 j).toNat = _
  rw [BitVec.toNat_add, BitVec.toNat_ofNat]
  omega

/-- R42: the records that the first `m` slots of a run append to batch `b`. -/
def runAdded (s : State) (b : Batch) (first : Byte) (values : List Value) (m : Nat) : List Staged :=
  ((List.range m).filter (fun j => b.records.all (fun r => r.slot != runSlot first j))).map
    (fun j => {
      slot := runSlot first j, value := values.getD j 0, lead := (s.slot (runSlot first j)).lead })

/-- R42: the list of batch `b` after the first `m` slots of a run. -/
def runRecords (s : State) (b : Batch) (first : Byte) (values : List Value) (m : Nat) :
    List Staged :=
  b.records.map (fun r =>
    if first.toNat ≤ r.slot.val ∧ r.slot.val < first.toNat + m
    then { r with value := values.getD (r.slot.val - first.toNat) 0 } else r) ++
    runAdded s b first values m

/-- R42: how far the run has come after its first `m` slots. -/
def runProgress (s : State) (b : Batch) (first : Byte) (values : List Value) (m : Nat) :
    RunProgress :=
  { batch := if m = 0 then b else b.withRecords (runRecords s b first values m),
    accepted := m, replaced := m - (runAdded s b first values m).length, stop := .ok,
    stopSlot := if m = 0 then slotNo first else runSlot first (m - 1) }

variable {s : State} {k : Client} {b : Batch} {first : Byte} {values : List Value} {m : Nat}

theorem runAdded_length_le : (runAdded s b first values m).length ≤ m := by
  rw [runAdded, List.length_map]
  exact (List.length_filter_le _ _).trans_eq (List.length_range)

theorem runRecords_length : (runRecords s b first values m).length =
    b.records.length + (runAdded s b first values m).length := by
  simp [runRecords]

theorem runRecords_zero : runRecords s b first values 0 = b.records := by
  have hsame : ∀ r : Staged, ¬ (first.toNat ≤ r.slot.val ∧ r.slot.val < first.toNat + 0) := by
    intro r; omega
  simp only [runRecords, hsame, if_false, List.map_id', runAdded, List.range_zero, List.filter_nil,
    List.map_nil, List.append_nil]

theorem runProgress_records :
    (runProgress s b first values m).batch.records = runRecords s b first values m := by
  unfold runProgress
  dsimp only
  split
  · rename_i h; rw [h, runRecords_zero]
  · rfl

theorem runAdded_succ : runAdded s b first values (m + 1) = runAdded s b first values m ++
    if b.records.all (fun r => r.slot != runSlot first m) = true then
      [{ slot := runSlot first m, value := values.getD m 0,
         lead := (s.slot (runSlot first m)).lead }] else [] := by
  rw [runAdded, List.range_succ, List.filter_append, List.map_append]
  congr 1
  by_cases h : b.records.all (fun r => r.slot != runSlot first m) = true <;> simp [h]

theorem mem_runAdded_slot {x : Staged} (h : x ∈ runAdded s b first values m) :
    ∃ j < m, x.slot = runSlot first j := by
  obtain ⟨j, hj, rfl⟩ := List.mem_map.mp h
  exact ⟨j, List.mem_range.mp (List.mem_filter.mp hj).1, rfl⟩

theorem runSlot_ne {j : Nat} (hm : first.toNat + m < 256) (hj : j < m) :
    runSlot first j ≠ runSlot first m := by
  intro h
  have := congrArg Fin.val h
  rw [runSlot_val (by omega), runSlot_val hm] at this
  omega

/-- The records that a run appends are not for a later slot of it. -/
theorem runAdded_not_slot (hm : first.toNat + m < 256) :
    ∀ x ∈ runAdded s b first values m, x.slot ≠ runSlot first m := by
  intro x hx
  obtain ⟨j, hj, hslot⟩ := mem_runAdded_slot hx
  rw [hslot]
  exact runSlot_ne hm hj

/-- A slot outside the batch's own list is not in the run's either. -/
theorem find?_runRecords_none (hm : first.toNat + m < 256)
    (h : ∀ r ∈ b.records, r.slot ≠ runSlot first m) :
    (runRecords s b first values m).find? (fun r => r.slot == runSlot first m) = none := by
  refine List.find?_eq_none.mpr (fun x hx => ?_)
  rw [beq_iff_eq]
  obtain hx | hx := List.mem_append.mp hx
  · obtain ⟨r, hr, rfl⟩ := List.mem_map.mp hx
    split <;> exact h r hr
  · exact runAdded_not_slot hm x hx

theorem find?_runRecords_some {r : Staged} (hr : r ∈ b.records) (hslot : r.slot = runSlot first m) :
    ∃ old, (runRecords s b first values m).find? (fun r => r.slot == runSlot first m) = some old := by
  rw [← Option.isSome_iff_exists, List.find?_isSome]
  refine ⟨_, List.mem_append_left _ (List.mem_map_of_mem hr), ?_⟩
  split <;> simp [hslot]

/-- The next slot of a run replaces the values staged for it. -/
theorem runRecords_replace (hm : first.toNat + m < 256)
    (h : ¬ b.records.all (fun r => r.slot != runSlot first m) = true) :
    (runRecords s b first values m).map (fun r =>
      if r.slot == runSlot first m then { r with value := values.getD m 0 } else r) =
    runRecords s b first values (m + 1) := by
  have hval := runSlot_val hm
  rw [runRecords, List.map_append, List.map_map, runRecords, runAdded_succ, if_neg h,
    List.append_nil]
  congr 1
  · refine List.map_congr_left (fun r _ => ?_)
    have hslot : r.slot = runSlot first m ↔ r.slot.val = first.toNat + m := by
      rw [Fin.ext_iff, hval]
    simp only [Function.comp_apply]
    by_cases hlow : first.toNat ≤ r.slot.val ∧ r.slot.val < first.toNat + m
    · have hne : ¬ r.slot = runSlot first m := by rw [hslot]; omega
      simp [hlow, hne, show r.slot.val < first.toNat + (m + 1) by omega]
    · by_cases heq : r.slot = runSlot first m
      · have hat := hslot.mp heq
        rw [if_neg hlow, if_pos (by simpa using heq), if_pos (by omega), hat,
          Nat.add_sub_cancel_left]
      · have : ¬ (first.toNat ≤ r.slot.val ∧ r.slot.val < first.toNat + (m + 1)) := by
          rw [hslot] at heq; omega
        simp [hlow, heq, this]
  · exact (List.map_congr_left (fun x hx => by
      simp [runAdded_not_slot hm x hx])).trans (List.map_id _)

/-- The next slot of a run is appended where the batch has no record for it. -/
theorem runRecords_append (hm : first.toNat + m < 256)
    (h : b.records.all (fun r => r.slot != runSlot first m) = true) :
    runRecords s b first values (m + 1) = runRecords s b first values m ++
      [{ slot := runSlot first m, value := values.getD m 0,
         lead := (s.slot (runSlot first m)).lead }] := by
  rw [runRecords, runAdded_succ, if_pos h, ← List.append_assoc, runRecords]
  congr 2
  refine List.map_congr_left (fun r hr => ?_)
  have hne : r.slot.val ≠ first.toNat + m := fun hv => by
    have := List.all_eq_true.mp h r hr
    rw [bne_iff_ne] at this
    exact this (Fin.ext (hv.trans (runSlot_val hm).symm))
  have hrange : (first.toNat ≤ r.slot.val ∧ r.slot.val < first.toNat + (m + 1)) ↔
      (first.toNat ≤ r.slot.val ∧ r.slot.val < first.toNat + m) := by omega
  simp only [hrange]

/-! ### The run, slot by slot -/

theorem runProgress_withRecords (l : List Staged) :
    (runProgress s b first values m).batch.withRecords l = b.withRecords l := by
  unfold runProgress
  dsimp only
  split <;> rfl

theorem runProgress_succ_batch : (runProgress s b first values (m + 1)).batch =
    b.withRecords (runRecords s b first values (m + 1)) := rfl

/-- A slot that passes the checks is staged, and the run goes on. -/
theorem stageRunOver_step (hm : first.toNat + m < 256)
    (hpass : s.stageRefusal k (runSlot first m) (values.getD m 0) = none)
    (hroom : b.records.length + (runAdded s b first values (m + 1)).length ≤ 32)
    (rest : List (SlotNo × Value)) :
    stageRunOver s k ((runSlot first m, values.getD m 0) :: rest) (runProgress s b first values m) =
      stageRunOver s k rest (runProgress s b first values (m + 1)) := by
  have hle : (runAdded s b first values m).length ≤ m := runAdded_length_le
  have hadded := runAdded_succ (s := s) (b := b) (first := first) (values := values) (m := m)
  by_cases h : b.records.all (fun r => r.slot != runSlot first m) = true
  · have hnone := find?_runRecords_none (s := s) (b := b) (values := values) hm (fun r hr => by
      have := List.all_eq_true.mp h r hr
      rwa [bne_iff_ne] at this)
    rw [if_pos h] at hadded
    have hlen : (runRecords s b first values m).length < Config.batchRecords := by
      rw [runRecords_length]
      rw [hadded, List.length_append, List.length_singleton] at hroom
      exact hroom
    have hone : stageOne s k (runProgress s b first values m).batch (runSlot first m)
        (values.getD m 0) = .appended (runProgress s b first values (m + 1)).batch := by
      rw [stageOne, hpass, runProgress_succ_batch, runRecords_append hm h]
      simp only [stageInto, runProgress_records, hnone, hlen, if_true, runProgress_withRecords]
    rw [stageRunOver, hone]
    refine congrArg (stageRunOver s k rest) ?_
    simp only [runProgress, hadded, List.length_append, List.length_singleton, Nat.add_sub_add_right,
      Nat.add_sub_cancel, Nat.succ_ne_zero, if_false]
  · obtain ⟨r, hr, hslot⟩ : ∃ r ∈ b.records, r.slot = runSlot first m := by
      simpa [List.all_eq_true] using h
    obtain ⟨old, hsome⟩ := find?_runRecords_some (s := s) (values := values) hr hslot
    rw [if_neg h, List.append_nil] at hadded
    have hone : stageOne s k (runProgress s b first values m).batch (runSlot first m)
        (values.getD m 0) = .replaced old.value (runProgress s b first values (m + 1)).batch := by
      rw [stageOne, hpass, runProgress_succ_batch, ← runRecords_replace hm h]
      simp only [stageInto, runProgress_records, hsome, runProgress_withRecords]
    rw [stageRunOver, hone]
    refine congrArg (stageRunOver s k rest) ?_
    simp only [runProgress, hadded, Nat.succ_ne_zero, if_false, Nat.add_sub_cancel,
      Nat.sub_add_comm hle]

/-- The slots and values of a run. -/
def runItems (first : Byte) (values : List Value) (count : Nat) : List (SlotNo × Value) :=
  (List.range count).map (fun j => (runSlot first j, values.getD j 0))

theorem runItems_drop {count : Nat} (h : m < count) : (runItems first values count).drop m =
    (runSlot first m, values.getD m 0) :: (runItems first values count).drop (m + 1) := by
  rw [List.drop_eq_getElem_cons (by simpa [runItems] using h)]
  simp [runItems]

/-- The first slots of a run that pass their checks are staged. -/
theorem stageRunOver_passed {count : Nat} (hrange : first.toNat + count ≤ 256) (hcount : m ≤ count)
    (hpass : ∀ j < m, s.stageRefusal k (runSlot first j) (values.getD j 0) = none)
    (hroom : b.records.length + (runAdded s b first values m).length ≤ 32) :
    stageRunOver s k (runItems first values count) (runProgress s b first values 0) =
      stageRunOver s k ((runItems first values count).drop m) (runProgress s b first values m) := by
  induction m with
  | zero => rfl
  | succ m ih =>
    have hlen : (runAdded s b first values m).length ≤
        (runAdded s b first values (m + 1)).length := by
      rw [runAdded_succ, List.length_append]
      exact Nat.le_add_right _ _
    rw [ih (by omega) (fun j hj => hpass j (by omega)) (by omega), runItems_drop (by omega),
      stageRunOver_step (by omega) (hpass m (by omega)) hroom]

theorem slotRange_zip {count : Nat} (hrange : first.toNat + count ≤ 256)
    (hlen : values.length = count) :
    (slotRange first.toNat count).zip values = runItems first values count := by
  have hslots : slotRange first.toNat count = (List.range count).map (runSlot first) := by
    rw [slotRange, ← List.filterMap_eq_map]
    refine List.filterMap_congr (fun j hj => ?_)
    have hj' : first.toNat + j < 256 := by have := List.mem_range.mp hj; omega
    rw [dif_pos hj']
    exact congrArg some (Fin.ext (runSlot_val hj').symm)
  rw [hslots]
  refine List.ext_getElem (by simp [runItems, hlen]) (fun j h1 h2 => ?_)
  have hj : j < values.length := by
    rw [List.length_zip] at h1; omega
  simp [runItems, hj]

/-- A slot that is refused stops the run. -/
theorem stageRunOver_refused {i : SlotNo} {v : Value} {rest : List (SlotNo × Value)}
    {p : RunProgress} {status : Status} (h : stageOne s k p.batch i v = .refused status) :
    stageRunOver s k ((i, v) :: rest) p = { p with stop := status, stopSlot := i } := by
  rw [stageRunOver, h]

/-- R42: why a run stops at its slot `m`, if it does. -/
theorem stageOne_refused (hm : first.toNat + m < 256) {stop : Status}
    (h : (s.slot (runSlot first m)).defined = false ∧ stop = .undefinedSlot ∨
      (s.slot (runSlot first m)).defined = true ∧
        ((s.slot (runSlot first m)).cls ≠ .epoch ∧ stop = .wrongClass ∨
          (s.slot (runSlot first m)).cls = .epoch ∧
            (s.admissible (runSlot first m) (values.getD m 0) = false ∧ stop = .outOfRange ∨
              s.admissible (runSlot first m) (values.getD m 0) = true ∧
                (¬ FreeFor k s (runSlot first m) ∧ stop = .notOwner ∨
                  FreeFor k s (runSlot first m) ∧
                    32 ≤ b.records.length + (runAdded s b first values m).length ∧
                    (∀ r ∈ b.records, r.slot ≠ runSlot first m) ∧ stop = .batchFull)))) :
    stageOne s k (runProgress s b first values m).batch (runSlot first m) (values.getD m 0) =
      .refused stop := by
  obtain ⟨h1, h2, h3, h4, h5⟩ := stageRefusal_cases s k (runSlot first m) (values.getD m 0)
  obtain ⟨hd, rfl⟩ | ⟨hd, ⟨hc, rfl⟩ | ⟨hc, ⟨ha, rfl⟩ | ⟨ha, ⟨hf, rfl⟩ | ⟨hf, hfull, hno, rfl⟩⟩⟩⟩ := h
  · rw [stageOne, h1 hd]
  · rw [stageOne, h2 hd hc]
  · rw [stageOne, h3 hd hc ha]
  · rw [stageOne, h4 hd hc ha hf]
  · have hlen : ¬ (runRecords s b first values m).length < Config.batchRecords := by
      rw [runRecords_length]; exact Nat.not_lt.mpr hfull
    rw [stageOne, h5 hd hc ha hf]
    simp only [stageInto, runProgress_records, find?_runRecords_none hm hno, hlen, if_false]

/-- Settles O20: the run in closed form, up to the slot that stops it. -/
theorem stageRunAppendsTheWholeRange : Obligations.StageRunAppendsTheWholeRange := by
  intro k tag first count values s h
  refine ⟨fun hbad => exec_refuses rfl h (if_pos (by omega)), fun hlow hhigh hlast =>
    ⟨fun hnone => exec_refuses rfl h ?_, fun n b m slotAt added records stop last ho hb hlen hm
      hslotAt hpass hadded hroom hrecords hstop => exec_changes rfl h ?_⟩⟩
  · have hlegal : ¬ (count.toNat < 1 ∨ 8 < count.toNat ∨ 255 < first.toNat + count.toNat - 1) := by
      omega
    simp only [ruleOf, serveStageRun, if_neg hlegal, openContext_eq_none.mpr hnone]
  · have hlegal : ¬ (count.toNat < 1 ∨ 8 < count.toNat ∨ 255 < first.toNat + count.toNat - 1) := by
      omega
    obtain rfl : slotAt = runSlot first := funext hslotAt
    have hadded' : added = runAdded s b first values m := hadded
    have hrecords' : records = runRecords s b first values m := by rw [hrecords, hadded']; rfl
    have hbatch : (runProgress s b first values m).batch = { b with
        records := records, maxLead := if m = 0 then b.maxLead else maxLeadOf records } := by
      unfold runProgress
      dsimp only
      split
      · rename_i h0
        rw [hrecords', h0, runRecords_zero]
      · rw [hrecords']; rfl
    have hrun : stageRunOver s k ((slotRange first.toNat count.toNat).zip values)
        (runProgress s b first values 0) =
        { runProgress s b first values m with
          stop := stop, stopSlot := ⟨last, by omega⟩ } := by
      rw [slotRange_zip hlast hlen, stageRunOver_passed hlast hm (fun j hj => by
        obtain ⟨h1, h2, h3, h4⟩ := hpass j hj
        exact (stageRefusal_cases s k _ _).2.2.2.2 h1 h2 h3 h4) (hadded' ▸ hroom)]
      obtain ⟨hall, rfl, hl⟩ | ⟨hlt, rfl, hwhy⟩ := hstop
      · have hdone : (runItems first values count.toNat).drop m = [] :=
          List.drop_of_length_le (by simp [runItems, hall])
        rw [hdone, stageRunOver]
        have hslot : (runSlot first (m - 1)).val = first.toNat + (m - 1) :=
          runSlot_val (by omega)
        have h0 : m ≠ 0 := by omega
        simp only [runProgress, h0, if_false]
        congr 1
        exact Fin.ext (by rw [hslot]; dsimp only; omega)
      · have hslot : (runSlot first m).val = first.toNat + m := runSlot_val (by omega)
        rw [runItems_drop hlt, stageRunOver_refused (stageOne_refused (by omega) (hadded' ▸ hwhy))]
        congr 1
        exact Fin.ext hslot
    have hzero : runProgress s b first values 0 = {
        batch := b, accepted := 0, replaced := 0, stop := .ok, stopSlot := slotNo first } := rfl
    rw [hzero] at hrun
    subst hb
    simp only [ruleOf, serveStageRun, if_neg hlegal, openContext_eq ho, hrun, hbatch, hadded']
    rfl

end Sys2Proof.StageRun
end


section
/-! PROOFS. The generator's own events: what reaches the event queues, the line, the window, the end of
an epoch and the trigger, each by run state. -/

set_option Elab.async false

namespace Sys2Proof.ScheduleEvents

open Sys2Proof Sys2Proof.Machine Sys2Proof.Commands Sys2Proof.PortRules Sys2Proof.Schedule

/-! ### What an event's records make of the queues (R167) -/

/-- A queue with the records of some offers taken one after another. -/
def takeAll (q : EventQueue) (out : List Offer) : EventQueue :=
  out.foldl (fun q o => q.take o.stamp o.event) q

theorem takeAll_cons (q : EventQueue) (o : Offer) (out : List Offer) :
    takeAll q (o :: out) = takeAll (q.take o.stamp o.event) out := rfl

/-- R167: a client's queue takes the records offered to it, in their order. -/
theorem deliver_eventQueue (s : State) (out : List Offer) (k : Client) :
    (deliver s out).eventQueue k = takeAll (s.eventQueue k) (out.filter (·.client == k)) := by
  induction out generalizing s with
  | nil => rfl
  | cons o out ih =>
    rw [deliver_cons, ih, deliverOne_eventQueue]
    by_cases h : o.client = k
    · rw [if_pos h, List.filter_cons_of_pos (by simpa using h), takeAll_cons, h]
    · rw [if_neg h, List.filter_cons_of_neg (by simpa using h)]

/-- R167: records reach the event queues and nothing else. -/
theorem deliver_eq (s : State) (out : List Offer) :
    deliver s out = { s with events := (deliver s out).events } := by
  induction out generalizing s with
  | nil => rfl
  | cons o out ih => exact ih (deliverOne s o)

/-- Of the records offered to the clients with a property, a client is offered its own. -/
theorem filter_offers (p : Client → Bool) (f : Client → Offer) (hf : ∀ j, (f j).client = j)
    (k : Client) :
    ((allClients.filter p).map f).filter (·.client == k) = if p k then [f k] else [] := by
  have hone : allClients.filter (fun j => j == k) = [k] := by revert k; decide
  have hboth : (allClients.filter p).filter (fun j => j == k) = [k].filter p := by
    rw [← hone, List.filter_filter, List.filter_filter]
    exact List.filter_congr fun j _ => Bool.and_comm _ _
  rw [List.filter_map]
  simp only [Function.comp_def, hf]
  rw [hboth]
  cases hp : p k <;> simp [hp]

theorem offersTo_filter (p : Client → Bool) (s : State) (e : Event) (k : Client) :
    (offersTo p s e).filter (·.client == k) =
      if p k then [{ client := k, stamp := s.gen.c, event := e }] else [] :=
  filter_offers p _ (fun _ => rfl) k

/-- The mark counter is no part of what an offer changes. -/
theorem take_counter (q : EventQueue) (n : Nat) (c : Epoch) (e : Event) :
    EventQueue.take { q with counter := n } c e = { q.take c e with counter := n } := by
  unfold EventQueue.take
  dsimp only
  split <;> rfl

/-! ### A boundary at which nothing is due (R92) -/

theorem releaseDue_none {w : Work}
    (h : ∀ x ∈ w.st.store, x.state = .waiting → x.dispatch ≠ w.st.gen.c) : releaseDue w = w := by
  have hnone : w.st.dueRecords w.st.gen.c = [] := by
    rw [State.dueRecords, List.filter_eq_nil_iff]
    intro x hx hdue
    simp only [Bool.and_eq_true, beq_iff_eq] at hdue
    exact h x hx hdue.1 hdue.2
  rw [releaseDue, hnone, List.foldl_nil]

theorem freeMerge_nil (draw : Nat) (b : List Offer) : freeMerge draw [] b = b := by
  unfold freeMerge
  cases b <;> rfl

theorem boundary_quiet {w : Work}
    (h : ∀ x ∈ w.st.store, x.state = .waiting → x.dispatch ≠ w.st.gen.c) :
    boundary w =
      { st := (advanceMarks (takePrograms w.st)).draw, out := w.out ++ markOffers w.st } := by
  unfold boundary
  have hnone : releaseDue { w with out := [] } = { w with out := [] } := releaseDue_none h
  rw [hnone]
  simp only [freeMerge_nil]

theorem markOffers_filter (s : State) (k : Client) : (markOffers s).filter (·.client == k) =
    if (s.eventQueue k).markDue then
      [{ client := k, stamp := s.gen.c, event := .epochMark s.gen.c }] else [] :=
  filter_offers (fun k => (s.eventQueue k).markDue) _ (fun _ => rfl) k

theorem advanceMarks_eventQueue (s : State) (k : Client) :
    (advanceMarks s).eventQueue k = (s.eventQueue k).advanceMark := Vector.getElem_map ..

/-- R107: what a boundary at which nothing is due makes of a client's event queue. -/
theorem quiet_eventQueue {w : Work} (hout : w.out = []) (k : Client)
    (h : ∀ x ∈ w.st.store, x.state = .waiting → x.dispatch ≠ w.st.gen.c) :
    (boundary w).finish.eventQueue k =
      if (w.st.eventQueue k).markDue then
        (w.st.eventQueue k).advanceMark.take w.st.gen.c (.epochMark w.st.gen.c)
      else (w.st.eventQueue k).advanceMark := by
  rw [boundary_quiet h, Work.finish, hout, List.nil_append, deliver_eventQueue, markOffers_filter]
  have hq : ((advanceMarks (takePrograms w.st)).draw).eventQueue k =
      (w.st.eventQueue k).advanceMark := advanceMarks_eventQueue _ k
  rw [hq]
  cases (w.st.eventQueue k).markDue <;> simp [takeAll]

theorem begun_eventQueue {c : Epoch} {s : State} (k : Client)
    (h : ∀ x ∈ s.store, x.state = .waiting → x.dispatch ≠ c) :
    (startEpochNow c (begin s)).finish.eventQueue k =
      if (s.eventQueue k).markDue then (s.eventQueue k).advanceMark.take c (.epochMark c)
      else (s.eventQueue k).advanceMark :=
  quiet_eventQueue (w := (begin s).update (beginEpoch c)) rfl k h

theorem advanceMark_of_unmarked {q : EventQueue} (h : q.mark = false) :
    q.markDue = false ∧ q.advanceMark = q := by
  simp [EventQueue.markDue, EventQueue.advanceMark, h]

theorem advanceMark_of_marked {q : EventQueue} (h : q.mark = true) :
    (q.counter + 1 ≠ q.divider →
      q.markDue = false ∧ q.advanceMark = { q with counter := q.counter + 1 }) ∧
    (q.counter + 1 = q.divider →
      q.markDue = true ∧ q.advanceMark = { q with counter := 0 }) := by
  constructor <;> intro hd <;> simp [EventQueue.markDue, EventQueue.advanceMark, h, hd]

/-- R167: an event's records change no part of the tables but the event queues. -/
theorem finish_frame (w : Work) :
    w.finish = { w.st with outputs := w.finish.outputs, events := w.finish.events } := by
  rw [finish_outputs]
  exact deliver_eq w.st w.out

/-- R92: what the boundary that begins epoch `c` leaves, with nothing due: the generator at its
beginning, the programs of the slots, and the advanced marks. -/
theorem begun_frame {c : Epoch} {s : State}
    (h : ∀ x ∈ s.store, x.state = .waiting → x.dispatch ≠ c) :
    (startEpochNow c (begin s)).finish =
      { s with
        gen := { s.gen with run := .running, c := c, line := 0, window := .shut },
        outputs := (startEpochNow c (begin s)).finish.outputs,
        events := (startEpochNow c (begin s)).finish.events, draws := s.draws + 1 } := by
  have hst : (startEpochNow c (begin s)).st =
      (advanceMarks (takePrograms (beginEpoch c s))).draw :=
    congrArg Work.st (boundary_quiet (w := (begin s).update (beginEpoch c)) h)
  refine (finish_frame _).trans ?_
  generalize (startEpochNow c (begin s)).finish.outputs = o
  generalize (startEpochNow c (begin s)).finish.events = e
  rw [hst]
  rfl

theorem begun_output {c : Epoch} {s : State}
    (h : ∀ x ∈ s.store, x.state = .waiting → x.dispatch ≠ c) (k : Fin 12) :
    (startEpochNow c (begin s)).finish.output k =
      (s.output k).takeProgram (s.liveProgram k) c s.gen.vspan := by
  have hst : (startEpochNow c (begin s)).st =
      (advanceMarks (takePrograms (beginEpoch c s))).draw :=
    congrArg Work.st (boundary_quiet (w := (begin s).update (beginEpoch c)) h)
  have ho : (startEpochNow c (begin s)).finish.outputs =
      (takePrograms (beginEpoch c s)).outputs := by rw [finish_outputs, hst]; rfl
  exact (output_of_outputs ho k).trans (takePrograms_output _ k)

/-! ### LINE_ADVANCE and the window (R90, R91, R117) -/

theorem settleWindow_of_idle {s : State} (ho : s.gen.openDue = false)
    (hc : s.gen.closeDue = false) : settleWindow s = s := by
  simp [settleWindow, ho, hc]

/-- R145, R146: when an output is active beyond line 0. -/
theorem activeAt_succ (p : Program) {vspan line : Nat} (h : line + 1 < vspan) :
    p.activeAt vspan (line + 1) = true ↔
      p.mode = .level ∨ p.mode = .pulse ∧ p.rise ≤ line + 1 ∧ line + 1 < p.fall := by
  unfold Program.activeAt
  cases p.mode <;> simp [h]

/-- Settles O30: the line moves on and every output is computed for it. -/
theorem lineAdvanceComputesTheLevels : Obligations.LineAdvanceComputesTheLevels := by
  unfold Obligations.LineAdvanceComputesTheLevels
  intro s hs
  have hexec : exec .lineAdvance s = .next (advanceLine s) := congrArg _ (whenOperating_of hs _)
  refine ⟨fun hrun hline hopen hclose => ?_, fun hout => ?_⟩
  · have hstep : advanceLine s = outputsAtLine (s.setGen { s.gen with line := s.gen.line + 1 }) := by
      simp [advanceLine, hrun, hline, settleWindow_of_idle hopen hclose]
    refine ⟨_, hexec, ?_, fun o => ?_⟩
    · rw [hstep]; rfl
    · refine ⟨(s.output o).selected && (s.output o).program.activeAt s.gen.vspan (s.gen.line + 1),
        ?_, ?_⟩
      · rw [Bool.and_eq_true, activeAt_succ _ hline]
      · rw [hstep, outputsAtLine_output]
        simp only [TimingOutput.atLine, State.setGen_gen, pinLevel]
        rfl
  · rw [hexec, advanceLine, if_neg]
    rcases hout with h | h
    · simp [h]
    · simp [Nat.not_lt.mpr h]

theorem bus_cases (b : BusNo) : b = 0 ∨ b = 1 := by
  revert b
  decide

theorem markQueuesLate_queue (d : Epoch) (s : State) (b : BusNo) :
    (markQueuesLate d s).queue b = markLate d (s.queue b) := by
  unfold markQueuesLate
  rw [State.setQueue_queue, State.setQueue_queue]
  rcases bus_cases b with rfl | rfl <;> rfl

/-- Settles O31: the window's two moments, and the late marks of the second. -/
theorem windowMomentsReachEnginesAndQueues : Obligations.WindowMomentsReachEnginesAndQueues := by
  unfold Obligations.WindowMomentsReachEnginesAndQueues
  intro s hs hrun
  refine ⟨fun hline hshut => ?_, fun hopen hline => ?_⟩
  · have hdue : s.gen.openDue = true := by simp [Generator.openDue, hrun, hshut, hline]
    exact congrArg _ ((whenOperating_of hs _).trans (if_pos hdue))
  · have hdue : s.gen.closeDue = true := by
      simpa [Generator.closeDue, hrun, hopen] using hline
    refine ⟨handWindowClose s, congrArg _ ((whenOperating_of hs _).trans (if_pos hdue)), rfl,
      fun b => ?_⟩
    refine (markQueuesLate_queue _ _ b).trans (List.map_congr_left fun e _ => ?_)
    by_cases h : e.onBus = false ∧ e.kind = .write ∧ e.deadline = some s.gen.c
    · rw [if_pos h, if_pos (by simp [h])]
    · rw [if_neg h, if_neg (by simpa [and_assoc] using h)]

/-! ### The end of an epoch (R93, R102) -/

theorem exec_epochEnd {s : State} (hs : s.phase = .operating) (hrun : s.gen.run.inEpoch = true)
    (hline : s.gen.line + 1 = s.gen.vspan) : exec .epochEnd s = .next (endEpoch s).finish := by
  refine congrArg _ ((whenOperating_of hs _).trans (if_pos ?_))
  simp [hrun, hline]

/-- R93: with no window moment due and no wait for a trigger, the next epoch begins, and the latch is
used up in TRIGGERED mode. -/
theorem endEpoch_begins {s : State} (hopen : s.gen.openDue = false)
    (hclose : s.gen.closeDue = false) (hrun : s.gen.run = .running)
    (hgo : s.gen.mode = .free ∨ s.gen.latch = true) :
    endEpoch s = startEpochNow (s.gen.c + 1) (begin (s.setGen { s.gen with
      latch := if s.gen.mode = .free then s.gen.latch else false })) := by
  unfold endEpoch
  simp only [settleWindow_of_idle hopen hclose, hrun]
  cases hm : s.gen.mode with
  | free => simp only [if_true]; rw [← hm]; rfl
  | triggered =>
    have hl : s.gen.latch = true := hgo.resolve_left (by simp [hm])
    simp [hl]

theorem enterStopped_inEpoch {s : State} (h : s.gen.run.inEpoch = true) :
    enterStopped s = outputsInactive ((markQueuesLate s.gen.c s).setGen { s.gen with
      run := .stopped, line := 0, latch := false, primeList := [], primesOutstanding := 0,
      window := .shut }) := by
  unfold enterStopped
  rw [if_pos h]
  rfl

/-- Settles O32: the end of the last line, by run state, mode and latch. -/
theorem epochEndActsByRunState : Obligations.EpochEndActsByRunState := by
  unfold Obligations.EpochEndActsByRunState
  intro s hs hline hopen hclose
  refine ⟨fun hrun hgo hdue => ?_, fun hrun hmode hlatch => ?_, fun hrun => ?_⟩
  · have hend := endEpoch_begins hopen hclose hrun hgo
    generalize hu : s.setGen { s.gen with
      latch := if s.gen.mode = .free then s.gen.latch else false } = u at hend
    have hdue' : ∀ x ∈ u.store, x.state = .waiting → x.dispatch ≠ s.gen.c + 1 := by
      rw [← hu]; exact hdue
    refine ⟨_, exec_epochEnd hs (by rw [hrun]; rfl) hline, ?_, fun o => ?_, fun k hk => ?_,
      fun k hk => ?_⟩
    · rw [hend]
      refine (begun_frame hdue').trans ?_
      generalize (startEpochNow (s.gen.c + 1) (begin u)).finish = t
      rw [← hu, ← hrun]
      rfl
    · rw [hend, begun_output hdue' o, ← hu]
      exact ⟨rfl, rfl⟩
    · obtain ⟨hno, hsame⟩ := advanceMark_of_unmarked hk
      rw [hend]
      rw [begun_eventQueue k hdue', ← hu]
      exact (if_neg (by rw [Bool.not_eq_true]; exact hno)).trans hsame
    · obtain ⟨hnot, hdue⟩ := advanceMark_of_marked hk
      have hq := begun_eventQueue k hdue'
      rw [← hend, ← hu] at hq
      refine ⟨fun hne => ?_, fun heq => ?_⟩
      · obtain ⟨hno, hsame⟩ := hnot hne
        exact hq.trans ((if_neg (by rw [Bool.not_eq_true]; exact hno)).trans hsame)
      · obtain ⟨hyes, hsame⟩ := hdue heq
        refine hq.trans ((if_pos hyes).trans ?_)
        rw [deliverOne_eventQueue, if_pos rfl]
        exact (congrArg (fun q : EventQueue => q.take _ _) hsame).trans (take_counter ..)
  · have hend : endEpoch s = begin (waitForTrigger s) := by
      unfold endEpoch
      simp only [settleWindow_of_idle hopen hclose, hrun, hmode, hlatch, Bool.false_eq_true,
        if_false]
    refine ⟨_, exec_epochEnd hs (by rw [hrun]; rfl) hline, ?_, fun o => ?_⟩
    · rw [hend]; rfl
    · rw [hend]
      have ho : (begin (waitForTrigger s)).finish.output o = (s.output o).inactive :=
        outputsInactive_output _ o
      rw [ho]
      exact ⟨rfl, rfl, rfl⟩
  · have hin : s.gen.run.inEpoch = true := by rw [hrun]; rfl
    have hend : endEpoch s = completeStop (begin s) := by
      unfold endEpoch
      simp only [settleWindow_of_idle hopen hclose, hrun]
    refine ⟨setIssuer none (enterStopped s), ?_, ?_⟩
    · have hst : (completeStop (begin s)).st = setIssuer none (enterStopped s) :=
        congrArg (setIssuer none) (reportSchedule_st ..)
      have hout : (completeStop (begin s)).out =
          offersTo (fun j => (s.eventQueue j).sched || s.gen.issuer == some j) s
            (.scheduleState .stopped s.gen.mode .stopComplete s.gen.issuer s.gen.c) := by
        refine (reportSchedule_out ..).trans ?_
        rw [Work.update_st, begin_st, enterStopped_inEpoch hin]
        rfl
      rw [exec_epochEnd hs hin hline, hend, Work.finish, hst, hout]
    · rw [enterStopped_inEpoch hin]; rfl

/-! ### The trigger (R94) -/

/-- Settles O34: a trigger by run state, mode and latch; another edge is none. -/
theorem triggerActsByRunState : Obligations.TriggerActsByRunState := by
  unfold Obligations.TriggerActsByRunState
  intro edge heldFor s hs
  refine ⟨fun hedge hheld => ?_, fun hno => ?_⟩
  · have hexec : exec (.trigger edge heldFor) s = .next (takeTrigger s).finish :=
      congrArg _ ((whenOperating_of hs _).trans
        (if_pos (by simp [Generator.isTrigger, hedge, hheld])))
    rw [hexec]
    refine ⟨fun hrun hmode hlatch => ?_, fun hrun hmode hlatch => ?_, fun hrun hdue => ?_,
      fun hother => ?_⟩
    · simp only [takeTrigger, hrun, hmode, hlatch, Bool.false_eq_true, if_false, begin_finish]
    · refine ⟨_, rfl, fun hle => ?_⟩
      have hn : (if s.gen.overruns < 65535 then s.gen.overruns + 1 else 65535) =
          min (s.gen.overruns + 1) 65535 := by split <;> omega
      simp only [takeTrigger, hrun, hmode, hlatch, if_true, hn, Work.finish, offerWhere_st,
        begin_st, offerWhere_out, begin_out, List.nil_append]
      rfl
    · have htake : takeTrigger s = startEpochNow (s.gen.c + 1) (begin s) := by
        simp only [takeTrigger, hrun]
      refine ⟨_, rfl, ?_, fun o => ?_⟩
      · rw [htake]; exact begun_frame hdue
      · rw [htake, begun_output hdue o]; rfl
    · have hignored : takeTrigger s = begin s := by
        unfold takeTrigger
        rcases hother with h | h | h | ⟨h, hm⟩
        · simp only [h]
        · simp only [h]
        · simp only [h]
        · simp only [h, hm]
      rw [hignored, begin_finish]
  · refine congrArg _ ((whenOperating_of hs _).trans (if_neg ?_))
    rw [Generator.isTrigger, Bool.and_eq_true, beq_iff_eq, decide_eq_true_eq, not_and_or, not_le]
    exact hno

end Sys2Proof.ScheduleEvents
end


section
/-! PROOFS. Transfers and attempts on a downstream bus: what a transfer carries, how it starts, and how
a failed attempt is made again. -/

set_option Elab.async false

namespace Sys2Proof.Attempts

open Sys2Proof Sys2Proof.Machine Sys2Proof.Commands Sys2Proof.PortRules

/-! ### The run that shares the head's transfer (R115) -/

/-- R115: entry `e` continues at register address `next` what a transfer of `head` holds so far. -/
def continues (head e : Entry) (entries bytes next : Nat) : Bool :=
  e.kind != .probe && head.kind != .probe && e.device == head.device && e.order == head.order &&
    e.register.toNat == next && decide (entries + 1 ≤ 8) && decide (bytes + e.width ≤ 16)

theorem coalescedRun_cons (head e : Entry) (rest : List Entry) (entries bytes next : Nat) :
    coalescedRun head (e :: rest) entries bytes next =
      if continues head e entries bytes next then
        e :: coalescedRun head rest (entries + 1) (bytes + e.width) (next + e.width)
      else [] := rfl

theorem continues_iff {head e : Entry} {entries bytes next : Nat} :
    continues head e entries bytes next = true ↔
      e.kind ≠ .probe ∧ head.kind ≠ .probe ∧ e.device = head.device ∧ e.order = head.order ∧
        e.register.toNat = next ∧ entries + 1 ≤ 8 ∧ bytes + e.width ≤ 16 := by
  simp [continues, and_assoc]

/-- R115: `run` is the longest run of `l` that continues the block of `head`, `p` being the last entry
before it, within the limits on the entries and bytes of the whole. -/
structure LongestRun (head p : Entry) (l run : List Entry) (entries bytes : Nat) : Prop where
  isPrefix : run = l.take run.length
  notProbe : 0 < run.length → head.kind ≠ .probe
  chain : ∀ (j : Nat) (x y : Entry), j < run.length → (p :: l)[j]? = some x → l[j]? = some y →
    y.kind ≠ .probe ∧ y.device = head.device ∧ y.order = head.order ∧
      y.register.toNat = x.register.toNat + x.width
  entriesLe : entries ≤ 8 → entries + run.length ≤ 8
  bytesLe : bytes ≤ 16 → bytes + (run.map (·.width)).sum ≤ 16
  longest : ∀ x y : Entry, (p :: l)[run.length]? = some x → l[run.length]? = some y →
    head.kind = .probe ∨ y.kind = .probe ∨ y.device ≠ head.device ∨ y.order ≠ head.order ∨
      y.register.toNat ≠ x.register.toNat + x.width ∨ 8 < entries + run.length + 1 ∨
      16 < bytes + (run.map (·.width)).sum + y.width

/-- Nothing continues the block: at the end of the queue, or at an entry that does not fit. -/
theorem longestRun_nil {head p : Entry} {l : List Entry} {entries bytes : Nat}
    (h : ∀ e rest, l = e :: rest →
      continues head e entries bytes (p.register.toNat + p.width) = false) :
    LongestRun head p l [] entries bytes where
  isPrefix := rfl
  notProbe h := absurd h (Nat.lt_irrefl 0)
  chain _ _ _ h := absurd h (Nat.not_lt_zero _)
  entriesLe h := h
  bytesLe h := h
  longest x y hx hy := by
    cases l with
    | nil => cases hy
    | cons e rest =>
      obtain rfl : p = x := Option.some.inj hx
      obtain rfl : e = y := Option.some.inj hy
      have hno := h e rest rfl
      rw [← Bool.not_eq_true, continues_iff] at hno
      simp only [List.length_nil, List.map_nil, List.sum_nil]
      by_contra hall
      push Not at hall
      obtain ⟨h1, h2, h3, h4, h5, h6, h7⟩ := hall
      exact hno ⟨h2, h1, h3, h4, h5, by omega, by omega⟩

/-- An entry that continues the block is carried with what is the longest run behind it. -/
theorem longestRun_cons {head p e : Entry} {rest run : List Entry} {entries bytes : Nat}
    (he : continues head e entries bytes (p.register.toNat + p.width) = true)
    (h : LongestRun head e rest run (entries + 1) (bytes + e.width)) :
    LongestRun head p (e :: rest) (e :: run) entries bytes := by
  obtain ⟨hkind, hhead, hdevice, horder, hnext, hentries, hbytes⟩ := continues_iff.mp he
  constructor
  case isPrefix => rw [List.length_cons, List.take_succ_cons, ← h.isPrefix]
  case notProbe => exact fun _ => hhead
  case chain =>
    intro j x y hj hx hy
    cases j with
    | zero => cases hx; cases hy; exact ⟨hkind, hdevice, horder, hnext⟩
    | succ j => exact h.chain j x y (Nat.lt_of_succ_lt_succ hj) hx hy
  case entriesLe =>
    intro _
    have := h.entriesLe hentries
    rw [List.length_cons]; omega
  case bytesLe =>
    intro _
    have := h.bytesLe hbytes
    rw [List.map_cons, List.sum_cons]; omega
  case longest =>
    intro x y hx hy
    have hlast := h.longest x y hx hy
    rw [List.length_cons, List.map_cons, List.sum_cons]
    have e1 : entries + (run.length + 1) + 1 = entries + 1 + run.length + 1 := by omega
    have e2 : bytes + (e.width + (run.map (·.width)).sum) + y.width =
        bytes + e.width + (run.map (·.width)).sum + y.width := by omega
    rw [e1, e2]
    exact hlast

theorem coalescedRun_longest (head : Entry) (l : List Entry) (p : Entry) (entries bytes : Nat) :
    LongestRun head p l (coalescedRun head l entries bytes (p.register.toNat + p.width))
      entries bytes := by
  induction l generalizing p entries bytes with
  | nil => exact longestRun_nil (fun _ _ h => by cases h)
  | cons e rest ih =>
    rw [coalescedRun_cons]
    by_cases hc : continues head e entries bytes (p.register.toNat + p.width) = true
    · rw [if_pos hc]
      obtain ⟨-, -, -, -, hnext, -, -⟩ := continues_iff.mp hc
      have hrest := ih e (entries + 1) (bytes + e.width)
      rw [hnext] at hrest
      exact longestRun_cons hc hrest
    · rw [if_neg hc]
      refine longestRun_nil fun e' rest' h => ?_
      cases h
      exact Bool.not_eq_true _ ▸ hc

/-- Settles O38: what a transfer carries behind its head. -/
theorem coalescedRunIsTheLongest : Obligations.CoalescedRunIsTheLongest := by
  unfold Obligations.CoalescedRunIsTheLongest
  intro head rest n hn
  have h : LongestRun head head rest (runBehind head rest) 1 head.width :=
    coalescedRun_longest head rest head 1 head.width
  subst hn
  refine ⟨h.isPrefix, h.notProbe, h.chain, ?_, h.bytesLe, fun x y hx hy => ?_⟩
  · have := h.entriesLe (by omega); omega
  · have hlast := h.longest x y hx hy
    rw [List.map_cons, List.sum_cons]
    have e1 : (runBehind head rest).length + 2 = 1 + (runBehind head rest).length + 1 := by omega
    rw [e1]
    exact hlast

/-! ### The start of a transfer (R114, R132, R137) -/

theorem noteAttempts_of_xfer {b : BusNo} {s : State} {t : Transfer}
    (h : (s.engine b).xfer = some t) : noteAttempts b s = s.setQueue b ((s.queue b).map (fun e =>
      if e.onBus then { e with attempts := t.made } else e)) := by
  simp only [noteAttempts, h]

/-- R114, R131: the entries that a transfer carries, and the number of its attempts in each. -/
theorem handOver_attempts (n made : Nat) (stamp : Option Epoch) (q : List Entry)
    (h : ∀ e ∈ q, e.onBus = false) :
    (handOver n stamp q).map (fun e => if e.onBus then { e with attempts := made } else e) =
      (q.take n).map (fun e => { e with onBus := true, stamp := stamp, attempts := made }) ++
        q.drop n := by
  rw [handOver, List.map_append, List.map_map]
  congr 1
  refine (List.map_congr_left fun e he => ?_).trans (List.map_id _)
  rw [if_neg (by simp [h e (List.mem_of_mem_drop he)])]
  rfl

theorem startAllowed_iff (g : Generator) : g.startAllowed = true ↔
    g.run = .stopped ∨ g.run = .priming ∨ g.run.inEpoch = true ∧ g.window = .opened := by
  unfold Generator.startAllowed RunState.inEpoch
  cases g.run <;> simp

/-- Settles O39: an engine that may start takes the head and its run; otherwise nothing starts. -/
theorem transferStartTakesTheHead : Obligations.TransferStartTakesTheHead := by
  unfold Obligations.TransferStartTakesTheHead
  intro b dataLow s hs
  have hexec : exec (.transferStart b dataLow) s =
      .next (if s.mayStart b then startTransfer b dataLow s else s) :=
    congrArg _ (whenOperating_of hs _)
  rw [hexec]
  refine ⟨fun head rest n stamp t hq hn hidle hoff hallowed hstamp ht => ?_, fun hno => ?_⟩
  · have hmay : s.mayStart b = true := by
      simp [State.mayStart, hidle, (startAllowed_iff s.gen).mpr hallowed, hq]
    have hstart : startTransfer b dataLow s = noteAttempts b
        ((s.setQueue b (handOver (n + 1) stamp (s.queue b))).setEngine b
          (beginAttempt (transferOf (s.device head.device) head (runBehind head rest)) dataLow
            { s.engine b with clock := (s.engine b).speed, sent := [] })) := by
      subst hn hstamp
      unfold startTransfer
      split
      · rename_i h; rw [hq] at h; cases h
      · rename_i head' rest' h
        rw [hq] at h
        cases h
        rfl
    have hxfer : (beginAttempt (transferOf (s.device head.device) head (runBehind head rest))
        dataLow { s.engine b with clock := (s.engine b).speed, sent := [] }).xfer = some t := by
      rw [ht]; cases dataLow <;> rfl
    rw [if_pos hmay, hstart, noteAttempts_of_xfer
      (by rw [State.setEngine_engine, if_pos rfl]; exact hxfer)]
    have hqueue : ((s.setQueue b (handOver (n + 1) stamp (s.queue b))).setEngine b
        (beginAttempt (transferOf (s.device head.device) head (runBehind head rest)) dataLow
          { s.engine b with clock := (s.engine b).speed, sent := [] })).queue b =
        handOver (n + 1) stamp (s.queue b) := (State.setQueue_queue ..).trans (if_pos rfl)
    rw [hqueue, handOver_attempts _ _ _ _ hoff, hq]
    refine congrArg Host.Outcome.next ((congrArg (fun u : State => u.setEngine b _)
      (State.setQueue_setQueue ..)).trans ?_)
    rw [ht]
    cases dataLow <;> rfl
  · rw [if_neg]
    simp only [State.mayStart, Bool.and_eq_true, beq_iff_eq, startAllowed_iff]
    rintro ⟨⟨hidle, hallowed⟩, hsome⟩
    rcases hno with h | h | h | ⟨h, hw⟩
    · simp [h] at hsome
    · exact h hidle
    · simp [h, RunState.inEpoch] at hallowed
    · rcases hallowed with g | g | ⟨-, g⟩
      · simp [g, RunState.inEpoch] at h
      · simp [g, RunState.inEpoch] at h
      · exact hw g

/-! ### A failed attempt (R135 to R137) -/

/-- R135: what reaches the wires of an attempt whose sent byte `x` is not acknowledged. -/
theorem nackedWire_append (front back : List WireItem) (x : Byte) :
    nackedWire (front.countP (·.isSend)) (front ++ .send x :: back) =
      front ++ [.send x, .stop] := by
  have hmin : min (front.countP (·.isSend))
      ((front ++ .send x :: back).countP (·.isSend) - 1) = front.countP (·.isSend) := by
    rw [List.countP_append, List.countP_cons_of_pos rfl]
    omega
  rw [nackedWire, hmin, cutAfter_append _ _ _ _ rfl]

theorem exec_attemptNack {b : BusNo} {nack : Nack} {s : State} {t : Transfer}
    (hs : s.phase = .operating) (hstate : (s.engine b).state = .transfer)
    (hxfer : (s.engine b).xfer = some t) (hlimit : (s.engine b).limitExceeded = false) :
    exec (.attemptNack b nack) s = .next (retryOrFail b { t with made := t.made + 1 } nack.dataLow
      (begin (putOnWires b (nackedWire nack.byte t.wire) s))).finish := by
  have hattempt : (s.engine b).attempting = some t := by
    simp [Engine.attempting, hstate, hlimit, hxfer]
  refine congrArg _ ((whenOperating_of hs _).trans ?_)
  simp only [hattempt]

/-- R135, R137: with attempts left, the next attempt begins at once or fails at once. -/
theorem retryOrFail_again {b : BusNo} {t : Transfer} {dataLow : Bool} {s : State}
    (h : t.made < t.limit) : (retryOrFail b t dataLow (begin s)).finish =
      (s.setEngine b (beginAttempt t dataLow (s.engine b))).setQueue b ((s.queue b).map (fun e =>
        if e.onBus then { e with attempts := t.made + (if dataLow then 1 else 0) } else e)) := by
  have hxfer : ((s.setEngine b (beginAttempt t dataLow (s.engine b))).engine b).xfer =
      some { t with made := t.made + (if dataLow then 1 else 0) } := by
    rw [State.setEngine_engine, if_pos rfl]
    cases dataLow <;> rfl
  unfold retryOrFail
  rw [if_pos h]
  exact noteAttempts_of_xfer hxfer

theorem limitExceeded_iff (e : Engine) :
    e.limitExceeded = true ↔ e.stretching = true ∧ e.stretchCount = 2 := by
  simp [Engine.limitExceeded]

theorem exec_stretchLimitExceeded {b : BusNo} {passed : Nat} {s : State}
    (hs : s.phase = .operating) (h : (s.engine b).limitExceeded = true) :
    exec (.stretchLimitExceeded ⟨b, passed⟩) s = .next (exceedStretch b passed s).finish :=
  congrArg _ ((whenOperating_of hs _).trans (if_pos h))

theorem beginAttempt_again (t : Transfer) {e : Engine} (h : e.state = .transfer) :
    beginAttempt t false e = { e with xfer := some t, stretching := false, stretchCount := 0 } := by
  simp [beginAttempt, h]

/-- Settles O42: a failed attempt is made again, and an exceeded stretch leads into RECOVERY. -/
theorem failedAttemptsAreMadeAgain : Obligations.FailedAttemptsAreMadeAgain := by
  unfold Obligations.FailedAttemptsAreMadeAgain
  refine ⟨fun b byte dataLow t m s hs hstate hxfer hlimit hleft hm => ?_,
    fun b passed t s hs hstate hxfer hstretch hcount => ?_, fun b s hs hno => ?_⟩
  · refine ⟨nackedWire byte t.wire, fun front back x hwire hbyte => ?_, ?_⟩
    · rw [hwire, ← hbyte, nackedWire_append]
    · rw [exec_attemptNack hs hstate hxfer hlimit,
        retryOrFail_again (t := { t with made := t.made + 1 }) hleft, ← hm, putOnWires,
        State.setEngine_engine, if_pos rfl, State.setEngine_setEngine]
      cases dataLow with
      | true => subst hm; rfl
      | false =>
        subst hm
        rw [beginAttempt_again _ (by exact hstate)]
        rfl
  · have hlimit : (s.engine b).limitExceeded = true :=
      (limitExceeded_iff _).mpr ⟨hstretch, hcount⟩
    rw [exec_stretchLimitExceeded hs hlimit]
    simp only [exceedStretch, hstate, hxfer, begin_finish]
    rw [noteAttempts_of_xfer (t := { t with made := t.made + 1 })
      (by rw [State.setEngine_engine, if_pos rfl])]
    rfl
  · have hlimit : (s.engine b).limitExceeded ≠ true := by
      rw [ne_eq, limitExceeded_iff, not_and_or, Bool.not_eq_true]
      exact hno
    exact ⟨fun passed => congrArg _ ((whenOperating_of hs _).trans (if_neg hlimit)),
      congrArg Host.Outcome.next ((whenOperating_of hs _).trans (if_neg hlimit))⟩

end Sys2Proof.Attempts
end


section
/-! PROOFS. The housekeeping tick at the leases and the engines, and the lapse of a lease. -/

set_option Elab.async false

namespace Sys2Proof.Leases

open Sys2Proof Sys2Proof.Machine Sys2Proof.Commands Sys2Proof.PortRules Sys2Proof.Requests
open Sys2Proof.ScheduleEvents

/-! ### One lease (R30, R31) -/

/-- R31: the next tick counts client k's lease down to 0. -/
abbrev Lapses (s : State) (k : Client) : Prop := (s.lease k).setting ≠ 0 ∧ (s.lease k).counter = 1

/-- R30: a lease counted down by one tick. -/
def Lease.counted (l : Lease) : Lease :=
  { l with counter := if l.setting = 0 then l.counter else l.counter - 1 }

/-- R31: the Claim Table once client k's lease has lapsed. -/
def lapsedClaims (k : Client) (s : State) : State :=
  let t := releaseAll k (s.setLease k { s.lease k with counter := 0 })
  if s.claims.token == some k then t.setToken none else t

/-- R31, R57: the tables once client k's lease has lapsed. -/
def lapsed (k : Client) (s : State) : State :=
  match s.openContext k with
  | none => lapsedClaims k s
  | some n => (lapsedClaims k s).setContext k n Batch.empty

/-- R57: what client k is told of its OPEN batch. -/
def abortOffers (k : Client) (s : State) : List Offer :=
  match s.openContext k with
  | none => []
  | some n => [{ client := k, stamp := s.gen.c, event := .batchAborted (s.context k n).id }]

/-- R31, R57: what client k is told when its lease lapses. -/
def lapseOffers (k : Client) (s : State) : List Offer :=
  { client := k, stamp := s.gen.c,
    event := .claimsLapsed (s.ownedCount k) (s.claims.token == some k) } :: abortOffers k s

theorem setLease_self (s : State) (k : Client) : s.setLease k (s.lease k) = s := by
  have h : put s.claims.lease k (s.lease k) = s.claims.lease := put_self _ _
  unfold State.setLease
  rw [h]

theorem tickLease_runs {w : Work} {k : Client} (h : ¬ Lapses w.st k) :
    tickLease w k = w.update (·.setLease k (Lease.counted (w.st.lease k))) := by
  rcases tickLease_cases w k with ⟨hstill, e⟩ | ⟨v, rfl, ⟨hone, -⟩ | ⟨htwo, e⟩⟩
  · have hc : Lease.counted (w.st.lease k) = w.st.lease k := by
      unfold Lease.counted
      rcases hstill with h0 | h0
      · rw [if_pos h0]
      · rw [h0, Nat.zero_sub, ite_self, ← h0]
    rw [e, hc, Work.update, setLease_self]
  · by_cases h0 : (w.st.lease k).setting = 0
    · have e : tickLease w k = w := by unfold tickLease; simp only [h0, true_or, if_true]
      rw [e, Work.update, Lease.counted, if_pos h0, setLease_self]
    · exact absurd ⟨h0, hone⟩ h
  · by_cases h0 : (w.st.lease k).setting = 0
    · have e : tickLease w k = w := by unfold tickLease; simp only [h0, true_or, if_true]
      rw [e, Work.update, Lease.counted, if_pos h0, setLease_self]
    · rw [e, Lease.counted, if_neg h0]

/-- R31, R57: the claims and the token go first; the OPEN batch is found where it was. -/
theorem tickLease_lapses {w : Work} {k : Client} (h : Lapses w.st k) :
    tickLease w k = { st := lapsed k w.st, out := w.out ++ lapseOffers k w.st } := by
  obtain ⟨hset, hone⟩ := h
  have htick : tickLease w k =
      lapse k (w.update (·.setLease k { w.st.lease k with counter := 0 })) := by
    simp only [tickLease, hset, hone, false_or, if_neg, Nat.one_ne_zero, not_false_eq_true, if_true,
      Nat.sub_self]
  have hfreed : lapse k (w.update (·.setLease k { w.st.lease k with counter := 0 })) =
      abortForLapse k (offerTo k
        (.claimsLapsed (w.st.ownedCount k) (w.st.claims.token == some k))
        (w.update (lapsedClaims k))) := rfl
  have hopen : (lapsedClaims k w.st).openContext k = w.st.openContext k := by
    unfold lapsedClaims
    dsimp only
    split <;> rfl
  have hcontext : ∀ n, (lapsedClaims k w.st).context k n = w.st.context k n := by
    intro n
    unfold lapsedClaims
    dsimp only
    split <;> rfl
  have hgen : (lapsedClaims k w.st).gen = w.st.gen := by
    unfold lapsedClaims
    dsimp only
    split <;> rfl
  rw [htick, hfreed]
  unfold abortForLapse lapsed lapseOffers abortOffers
  simp only [offerTo_st, Work.update_st, hopen]
  cases w.st.openContext k with
  | none => simp only [offerTo, Work.update, hgen]
  | some n => simp [offerTo, Work.update, hcontext, hgen]

theorem lapsedClaims_frame (k : Client) (s : State) :
    lapsedClaims k s = { s with claims := (lapsedClaims k s).claims } := by
  unfold lapsedClaims
  dsimp only
  split <;> rfl

theorem lapsed_claims (k : Client) (s : State) : (lapsed k s).claims = (lapsedClaims k s).claims := by
  unfold lapsed
  split <;> rfl

theorem lapsed_frame (k : Client) (s : State) : lapsed k s = { s with
    claims := (lapsed k s).claims,
    batches := { s.batches with context := (lapsed k s).batches.context } } := by
  have h := lapsedClaims_frame k s
  rw [lapsed_claims]
  unfold lapsed
  split
  · rw [h]
  · rw [h]; rfl

theorem lapsed_owner (k : Client) (s : State) (i : SlotNo) :
    (lapsed k s).owner i = if s.owner i = some k then none else s.owner i := by
  have h : (lapsedClaims k s).owner i = (releaseAll k s).owner i := by
    unfold lapsedClaims
    dsimp only
    split <;> rfl
  have hsame : (lapsed k s).owner i = (lapsedClaims k s).owner i := by
    unfold State.owner
    rw [lapsed_claims]
  rw [hsame, h, Effects.releaseAll_owner]

theorem lapsed_token (k : Client) (s : State) : (lapsed k s).claims.token =
    if s.claims.token = some k then none else s.claims.token := by
  rw [lapsed_claims]
  unfold lapsedClaims
  by_cases h : s.claims.token = some k
  · simp [h]
  · simp only [h, beq_iff_eq, if_false]; rfl

theorem lapsed_lease (k : Client) (s : State) (j : Client) : (lapsed k s).lease j =
    if k = j then { s.lease k with counter := 0 } else s.lease j := by
  have h : (lapsedClaims k s).lease j = (s.setLease k { s.lease k with counter := 0 }).lease j := by
    unfold lapsedClaims
    dsimp only
    split <;> rfl
  have hsame : (lapsed k s).lease j = (lapsedClaims k s).lease j := by
    unfold State.lease
    rw [lapsed_claims]
  rw [hsame, h, State.setLease_lease]

theorem lapsed_context (k : Client) (s : State) (j : Client) (m : Fin 4) :
    (lapsed k s).context j m =
      if k = j ∧ s.openContext k = some m then Batch.empty else s.context j m := by
  have h : ∀ n, (lapsedClaims k s).context j n = s.context j n := by
    intro n
    rw [lapsedClaims_frame]
    rfl
  unfold lapsed
  cases ho : s.openContext k with
  | none => simp [h]
  | some n => simp [State.setContext_context, h]

/-- Settles O51: the lapse of one lease, and no lapse at another count. -/
theorem leaseLapseGivesUpClaims : Obligations.LeaseLapseGivesUpClaims := by
  unfold Obligations.LeaseLapseGivesUpClaims
  intro k s hs
  refine ⟨fun hset hone => ?_, fun hno => ?_⟩
  · have hlapse := tickLease_lapses (w := begin s) (k := k) ⟨hset, hone⟩
    refine ⟨lapsed k s, s.ownedCount k, abortOffers k s, ownedCount_eq s k, ?_,
      lapsed_owner k s, lapsed_token k s, ?_, fun j hj => ?_, fun n hn => ?_, fun hnone => ?_, ?_⟩
    · refine congrArg _ ((whenOperating_of hs _).trans ((if_pos hone).trans ?_))
      rw [hlapse]
      rfl
    · rw [lapsed_lease, if_pos rfl]
    · rw [lapsed_lease, if_neg (Ne.symm hj)]
    · have ho := openContext_eq hn
      refine ⟨?_, ?_⟩
      · rw [lapsed, ho, lapsedClaims_frame]; rfl
      · rw [abortOffers, ho]
    · have ho := openContext_eq_none.mpr hnone
      refine ⟨?_, ?_⟩
      · rw [lapsed, ho, lapsedClaims_frame]
      · rw [abortOffers, ho]
    · have hf := lapsed_frame k s
      generalize lapsed k s = t at hf ⊢
      rw [hf]
  · refine congrArg _ ((whenOperating_of hs _).trans ?_)
    by_cases hone : (s.lease k).counter = 1
    · have h0 : (s.lease k).setting = 0 := hno.resolve_right (fun h => h hone)
      have hidle : tickLease (begin s) k = begin s := by
        unfold tickLease
        simp only [begin_st, h0, true_or, if_true]
      rw [if_pos hone, hidle, begin_finish]
    · rw [if_neg hone]

/-! ### The tick at all leases (R30) -/

theorem tickLease_st (w : Work) (k : Client) : (tickLease w k).st =
    if Lapses w.st k then lapsed k w.st
    else w.st.setLease k (Lease.counted (w.st.lease k)) := by
  by_cases h : Lapses w.st k
  · rw [tickLease_lapses h, if_pos h]
  · rw [tickLease_runs h, if_neg h]; rfl

theorem tickLease_out (w : Work) (k : Client) : (tickLease w k).out =
    w.out ++ if Lapses w.st k then lapseOffers k w.st else [] := by
  by_cases h : Lapses w.st k
  · rw [tickLease_lapses h, if_pos h]
  · rw [tickLease_runs h, if_neg h, List.append_nil]; rfl

theorem tickLease_frame (w : Work) (k : Client) : (tickLease w k).st = { w.st with
    claims := (tickLease w k).st.claims,
    batches := { w.st.batches with context := (tickLease w k).st.batches.context } } := by
  rw [tickLease_st]
  split
  · exact lapsed_frame k w.st
  · rfl

/-- R31: what the Claim Table and the batches hold of client `j` is the same in two states. -/
structure SameStanding (j : Client) (s t : State) : Prop where
  lease : t.lease j = s.lease j
  owner : ∀ i : SlotNo, t.owner i = some j ↔ s.owner i = some j
  token : t.claims.token = some j ↔ s.claims.token = some j
  context : ∀ n : Fin 4, t.context j n = s.context j n
  c : t.gen.c = s.gen.c

theorem SameStanding.refl (j : Client) (s : State) : SameStanding j s s :=
  ⟨rfl, fun _ => .rfl, .rfl, fun _ => rfl, rfl⟩

theorem SameStanding.trans {j : Client} {s t u : State} (h : SameStanding j s t)
    (g : SameStanding j t u) : SameStanding j s u :=
  ⟨g.lease.trans h.lease, fun i => (g.owner i).trans (h.owner i), g.token.trans h.token,
    fun n => (g.context n).trans (h.context n), g.c.trans h.c⟩

theorem tickLease_gen_c (w : Work) (k : Client) : (tickLease w k).st.gen.c = w.st.gen.c := by
  rw [tickLease_frame]

/-- R30: the tick at one lease leaves the other clients what they have. -/
theorem tickLease_sameStanding (w : Work) {k j : Client} (h : k ≠ j) :
    SameStanding j w.st (tickLease w k).st := by
  have hsome : (some k : Option Client) ≠ some j := fun e => h (Option.some.inj e)
  refine ⟨?_, fun i => ?_, ?_, fun n => ?_, tickLease_gen_c w k⟩
  · rw [tickLease_st]
    split
    · rw [lapsed_lease, if_neg h]
    · rw [State.setLease_lease, if_neg h]
  · rw [tickLease_st]
    split
    · rw [lapsed_owner]
      split
      · rename_i hk; rw [hk]; simp [h]
      · exact .rfl
    · exact .rfl
  · rw [tickLease_st]
    split
    · rw [lapsed_token]
      split
      · rename_i hk; rw [hk]; simp [h]
      · exact .rfl
    · exact .rfl
  · rw [tickLease_st]
    split
    · rw [lapsed_context, if_neg (fun hk => h hk.1)]
    · rfl

theorem tickLease_others_out (w : Work) {k j : Client} (h : k ≠ j) :
    (tickLease w k).out.filter (·.client == j) = w.out.filter (·.client == j) := by
  have hk : ∀ o ∈ lapseOffers k w.st, o.client = k := by
    unfold lapseOffers abortOffers
    intro o ho
    rcases List.mem_cons.mp ho with rfl | ho
    · rfl
    · split at ho
      · cases ho
      · rw [List.mem_singleton.mp ho]
  have hnone : (lapseOffers k w.st).filter (·.client == j) = [] :=
    List.filter_eq_nil_iff.mpr fun o ho => by simp [hk o ho, h]
  rw [tickLease_out, List.filter_append]
  split
  · rw [hnone, List.append_nil]
  · rw [List.filter_nil, List.append_nil]

theorem lapseOffers_own (k : Client) (s : State) :
    (lapseOffers k s).filter (·.client == k) = lapseOffers k s := by
  refine List.filter_eq_self.mpr fun o ho => ?_
  unfold lapseOffers abortOffers at ho
  rcases List.mem_cons.mp ho with rfl | ho
  · exact beq_self_eq_true k
  · split at ho
    · cases ho
    · rw [List.mem_singleton.mp ho]; exact beq_self_eq_true k

theorem SameStanding.openContext {j : Client} {s t : State} (h : SameStanding j s t) :
    t.openContext j = s.openContext j := by
  simp only [State.openContext, State.findContext, h.context]

/-- What a lapse tells a client follows from what is held of it. -/
theorem SameStanding.lapseOffers {j : Client} {s t : State} (h : SameStanding j s t) :
    lapseOffers j t = lapseOffers j s := by
  have hcount : t.ownedCount j = s.ownedCount j := by
    rw [ownedCount_eq, ownedCount_eq]
    refine List.countP_congr fun i _ => ?_
    simpa using h.owner i
  have htoken : (t.claims.token == some j) = (s.claims.token == some j) := by
    rw [Bool.eq_iff_iff]; simpa using h.token
  simp only [Leases.lapseOffers, abortOffers, h.openContext, h.context, h.c, hcount, htoken]

/-- R30: the four leases are counted down as if each were alone: what the ticks before it and behind it
do leaves a client what it has. -/
theorem tickLeases_split {l : List Client} (hl : l.Nodup) {j : Client} (hj : j ∈ l) (w : Work) :
    ∃ v : Work, SameStanding j w.st v.st ∧ v.out.filter (·.client == j) =
        w.out.filter (·.client == j) ∧
      SameStanding j (tickLease v j).st (l.foldl tickLease w).st ∧
      (l.foldl tickLease w).out.filter (·.client == j) =
        (tickLease v j).out.filter (·.client == j) := by
  have hothers : ∀ (l : List Client) (w : Work), j ∉ l →
      SameStanding j w.st (l.foldl tickLease w).st ∧
        (l.foldl tickLease w).out.filter (·.client == j) = w.out.filter (·.client == j) := by
    intro l
    induction l with
    | nil => exact fun w _ => ⟨.refl j w.st, rfl⟩
    | cons k l ih =>
      intro w hj
      rw [List.mem_cons, not_or] at hj
      obtain ⟨h1, h2⟩ := ih (tickLease w k) hj.2
      exact ⟨(tickLease_sameStanding w (Ne.symm hj.1)).trans h1,
        h2.trans (tickLease_others_out w (Ne.symm hj.1))⟩
  induction l generalizing w with
  | nil => cases hj
  | cons k l ih =>
    rw [List.nodup_cons] at hl
    by_cases hk : k = j
    · subst hk
      obtain ⟨h1, h2⟩ := hothers l (tickLease w k) hl.1
      exact ⟨w, .refl k w.st, rfl, h1, h2⟩
    · have hj' : j ∈ l := (List.mem_cons.mp hj).resolve_left (Ne.symm hk)
      obtain ⟨v, h1, h2, h3, h4⟩ := ih hl.2 hj' (tickLease w k)
      exact ⟨v, (tickLease_sameStanding w hk).trans h1,
        h2.trans (tickLease_others_out w hk), h3, h4⟩

theorem tickLeases_frame (l : List Client) (w : Work) : (l.foldl tickLease w).st = { w.st with
    claims := (l.foldl tickLease w).st.claims,
    batches := { w.st.batches with context := (l.foldl tickLease w).st.batches.context } } := by
  induction l generalizing w with
  | nil => rfl
  | cons k l ih =>
    rw [List.foldl_cons]
    refine (ih (tickLease w k)).trans ?_
    generalize l.foldl tickLease (tickLease w k) = v
    rw [tickLease_frame w k]

/-- R136: what a tick makes of an engine that is in a transfer or a recovery. -/
theorem tick_measures {e : Engine} (held : Bool) (h : e.state = .transfer ∨ e.state = .recovery) :
    e.tick held = if e.limitExceeded then e
      else if held then
        { e with
          stretching := true
          stretchCount := if e.stretching then e.stretchCount + 1 else 1 }
      else { e with stretching := false } := by
  unfold Engine.tick
  rcases h with h | h <;> simp only [h]

theorem tick_still {e : Engine} (held : Bool) (h : e.state = .idle ∨ e.state = .fault) :
    e.tick held = e := by
  unfold Engine.tick
  rcases h with h | h <;> simp only [h]

/-- The four leases, counted down by one tick, with the records of the lapses. -/
@[irreducible] def tickedLeases (s : State) : Work := allClients.foldl tickLease (begin s)

theorem tickedLeases_frame (s : State) : (tickedLeases s).st = { s with
    claims := (tickedLeases s).st.claims,
    batches := { s.batches with context := (tickedLeases s).st.batches.context } } := by
  have h := tickLeases_frame allClients (begin s)
  rw [← tickedLeases] at h
  exact h

theorem tickedLeases_finish (s : State) : (tickedLeases s).finish = { s with
    claims := (tickedLeases s).st.claims,
    batches := { s.batches with context := (tickedLeases s).st.batches.context },
    events := (tickedLeases s).finish.events } := by
  have h := tickedLeases_frame s
  have hf := finish_frame (tickedLeases s)
  have ho := finish_outputs (tickedLeases s)
  generalize (tickedLeases s).finish = t at hf ho ⊢
  generalize (tickedLeases s).st = u at h hf ho ⊢
  rw [ho] at hf
  rw [hf, h]

theorem tick_eq (held0 held1 : Bool) (s : State) : tick held0 held1 s =
    ((tickedLeases s).finish.setEngine 0 (((tickedLeases s).finish.engine 0).tick held0)).setEngine
      1 (((tickedLeases s).finish.engine 1).tick held1) := by
  unfold tick
  rw [← tickedLeases]

theorem tick_frame (held0 held1 : Bool) (s : State) : tick held0 held1 s =
    { s with
      claims := (tickedLeases s).st.claims,
      batches := { s.batches with context := (tickedLeases s).st.batches.context },
      events := (tickedLeases s).finish.events,
      buses := { s.buses with engine := (tick held0 held1 s).buses.engine } } := by
  have hf := tickedLeases_finish s
  rw [tick_eq]
  generalize (tickedLeases s).finish = t at hf ⊢
  rw [hf]
  rfl

theorem tick_engine (held0 held1 : Bool) (s : State) :
    (tick held0 held1 s).engine 0 = (s.engine 0).tick held0 ∧
      (tick held0 held1 s).engine 1 = (s.engine 1).tick held1 := by
  have hf := tickedLeases_finish s
  rw [tick_eq]
  generalize (tickedLeases s).finish = t at hf ⊢
  have hb : ∀ b, t.engine b = s.engine b := by rw [hf]; exact fun _ => rfl
  rw [State.setEngine_engine, State.setEngine_engine, State.setEngine_engine, hb, hb]
  exact ⟨rfl, rfl⟩

theorem sameStanding_of_tables {j : Client} {s t : State} (hclaims : t.claims = s.claims)
    (hcontext : t.batches.context = s.batches.context) (hgen : t.gen = s.gen) :
    SameStanding j s t where
  lease := by unfold State.lease; rw [hclaims]
  owner i := by unfold State.owner; rw [hclaims]
  token := by rw [hclaims]
  context n := by unfold State.context; rw [hcontext]
  c := by rw [hgen]

/-- What a tick leaves of a client's standing, and what the client is told. -/
theorem tick_client (held0 held1 : Bool) (s : State) (j : Client) :
    ∃ v : Work, SameStanding j s v.st ∧
      SameStanding j (tickLease v j).st (tick held0 held1 s) ∧
      (tick held0 held1 s).eventQueue j =
        takeAll (s.eventQueue j) (if Lapses s j then lapseOffers j s else []) := by
  obtain ⟨v, h1, h2, h3, h4⟩ :=
    tickLeases_split (l := allClients) (by decide) (by revert j; decide : j ∈ allClients) (begin s)
  rw [← tickedLeases] at h3 h4
  rw [begin_st] at h1
  refine ⟨v, h1, h3.trans ?_, ?_⟩
  · rw [tick_frame]
    exact sameStanding_of_tables rfl rfl (by rw [tickedLeases_frame])
  · have hlapses : Lapses v.st j ↔ Lapses s j := by rw [Lapses, Lapses, h1.lease]
    have hq : (tick held0 held1 s).eventQueue j =
        takeAll ((tickedLeases s).st.eventQueue j)
          ((tickedLeases s).out.filter (·.client == j)) := by
      rw [tick_eq, ← deliver_eventQueue]
      rfl
    have hsame : (tickedLeases s).st.eventQueue j = s.eventQueue j := by
      rw [tickedLeases_frame]
      rfl
    rw [hq, hsame, h4, tickLease_out, List.filter_append, h2, begin_out, List.filter_nil,
      List.nil_append]
    by_cases hl : Lapses s j
    · rw [if_pos hl, if_pos (hlapses.mpr hl), lapseOffers_own, h1.lapseOffers]
    · rw [if_neg hl, if_neg (fun h => hl (hlapses.mp h)), List.filter_nil]

/-- No tick hands a slot or the token to another client: it keeps its holder or loses it. -/
theorem tickLeases_holders (l : List Client) (w : Work) :
    (∀ i : SlotNo, (l.foldl tickLease w).st.owner i = w.st.owner i ∨
        (l.foldl tickLease w).st.owner i = none) ∧
      ((l.foldl tickLease w).st.claims.token = w.st.claims.token ∨
        (l.foldl tickLease w).st.claims.token = none) := by
  induction l generalizing w with
  | nil => exact ⟨fun _ => .inl rfl, .inl rfl⟩
  | cons k l ih =>
    obtain ⟨h1, h2⟩ := ih (tickLease w k)
    obtain ⟨g1, g2⟩ : (∀ i, (tickLease w k).st.owner i = w.st.owner i ∨
        (tickLease w k).st.owner i = none) ∧
        ((tickLease w k).st.claims.token = w.st.claims.token ∨
          (tickLease w k).st.claims.token = none) := by
      rw [tickLease_st]
      split
      · refine ⟨fun i => ?_, ?_⟩
        · rw [lapsed_owner]; split <;> simp
        · rw [lapsed_token]; split <;> simp
      · exact ⟨fun _ => .inl rfl, .inl rfl⟩
    refine ⟨fun i => ?_, ?_⟩
    · rcases h1 i with h | h
      · rw [List.foldl_cons, h]; exact g1 i
      · exact .inr h
    · rcases h2 with h | h
      · rw [List.foldl_cons, h]; exact g2
      · exact .inr h

theorem tick_holders (held0 held1 : Bool) (s : State) :
    (∀ i : SlotNo, (tick held0 held1 s).owner i = s.owner i ∨
        (tick held0 held1 s).owner i = none) ∧
      ((tick held0 held1 s).claims.token = s.claims.token ∨
        (tick held0 held1 s).claims.token = none) := by
  have h := tickLeases_holders allClients (begin s)
  rw [← tickedLeases] at h
  rw [tick_frame]
  exact h

/-- Settles O50: the tick at the four leases and the two engines. -/
theorem tickCountsLeasesAndStretches : Obligations.TickCountsLeasesAndStretches := by
  unfold Obligations.TickCountsLeasesAndStretches
  intro held0 held1 s hs
  obtain ⟨howner, htoken⟩ := tick_holders held0 held1 s
  refine ⟨tick held0 held1 s,
    congrArg Host.Outcome.next (whenOperating_of hs (tick held0 held1)), ?_, fun k => ?_, fun i hi => ?_,
    fun ht => ?_, fun k hno => ?_, fun k hset hone => ?_, fun b held hb => ?_⟩
  · have hf := tick_frame held0 held1 s
    generalize tick held0 held1 s = t at hf ⊢
    rw [hf]
  · obtain ⟨v, h1, h2, -⟩ := tick_client held0 held1 s k
    rw [h2.lease, tickLease_st, ← h1.lease]
    split
    · rename_i hl
      rw [lapsed_lease, if_pos rfl, if_neg hl.1, hl.2]
    · rw [State.setLease_lease, if_pos rfl]
      rfl
  · exact (howner i).elim (fun h => h.trans hi) id
  · exact htoken.elim (fun h => h.trans ht) id
  · obtain ⟨v, h1, h2, h3⟩ := tick_client held0 held1 s k
    have hquiet : ¬ Lapses s k := fun h => hno.elim h.1 (fun hc => hc h.2)
    have hquiet' : ¬ Lapses v.st k := by rwa [Lapses, h1.lease]
    have hst := tickLease_st v k
    rw [if_neg hquiet'] at hst
    rw [hst] at h2
    refine ⟨fun i hi => (h2.owner i).mpr ((h1.owner i).mpr hi),
      fun ht => h2.token.mpr (h1.token.mpr ht),
      fun n => (h2.context n).trans (h1.context n), ?_⟩
    rw [h3, if_neg hquiet]
    rfl
  · obtain ⟨v, h1, h2, h3⟩ := tick_client held0 held1 s k
    have hst := tickLease_st v k
    rw [if_pos (by rw [Lapses, h1.lease]; exact ⟨hset, hone⟩ : Lapses v.st k)] at hst
    rw [hst] at h2
    have hcontext : ∀ n, (tick held0 held1 s).context k n =
        if s.openContext k = some n then Batch.empty else s.context k n := fun n => by
      rw [h2.context, lapsed_context, h1.openContext, h1.context]
      simp only [true_and]
    refine ⟨fun i hi => ?_, fun ht => ?_, s.ownedCount k, abortOffers k s, ownedCount_eq s k, ?_,
      fun n hn => ?_, fun hnone => ?_⟩
    · have hfreed : (tick held0 held1 s).owner i ≠ some k := by
        rw [ne_eq, h2.owner, lapsed_owner]
        split <;> simp [*]
      exact (howner i).resolve_left (fun h => hfreed (h.trans hi))
    · have hfreed : (tick held0 held1 s).claims.token ≠ some k := by
        rw [ne_eq, h2.token, lapsed_token]
        split <;> simp [*]
      exact htoken.resolve_left (fun h => hfreed (h.trans ht))
    · rw [h3, if_pos ⟨hset, hone⟩, deliver_eventQueue]
      exact congrArg _ (lapseOffers_own k s).symm
    · have ho := openContext_eq hn
      refine ⟨by rw [abortOffers, ho], by rw [hcontext, if_pos ho], fun m hm => ?_⟩
      rw [hcontext, if_neg (by rw [ho, Option.some_inj]; exact Ne.symm hm)]
    · have ho := openContext_eq_none.mpr hnone
      refine ⟨by rw [abortOffers, ho], fun n => ?_⟩
      rw [hcontext, if_neg (by rw [ho]; exact nofun)]
  · have hengine : (tick held0 held1 s).engine b = (s.engine b).tick held := by
      obtain ⟨h0, h1⟩ := tick_engine held0 held1 s
      rcases hb with ⟨rfl, rfl⟩ | ⟨rfl, rfl⟩
      · exact h0
      · exact h1
    rw [hengine]
    refine ⟨fun h => tick_still held h, fun h => ?_⟩
    rw [tick_measures held h]
    refine ⟨fun hstretch hcount => ?_, fun hno => ?_⟩
    · rw [if_pos ((Attempts.limitExceeded_iff _).mpr ⟨hstretch, hcount⟩)]
    · rw [if_neg (by
        rw [Attempts.limitExceeded_iff, not_and_or, Bool.not_eq_true]
        exact hno)]
      exact ⟨fun hheld => by rw [hheld]; rfl, fun hheld => by rw [hheld]; rfl⟩

end Sys2Proof.Leases
end


section
/-! PROOFS. How a law of the tables is carried through every operation from what it says of the single
pieces: a batch, a queue, an entry that enters, a slot that is updated, the claims. -/

set_option Elab.async false

namespace Sys2Proof.Pieces

open Sys2Proof Sys2Proof.Machine Sys2Proof.Commands Sys2Proof.Rules Sys2Proof.Effects
open Sys2Proof.Schedule Sys2Proof.Carrying Sys2Proof.Leases

/-! ### What no event and few requests change -/

/-- A slot record but for the fields of its live value. -/
def descriptor (r : Slot) : Slot := { r with live := 0, liveState := .valid, applied := none }

/-- The slots' descriptors and the device table. -/
structure Frame where
  slot : SlotNo → Slot
  device : Vector Device 8

def frameOf (s : State) : Frame := ⟨fun i => descriptor (s.slot i), s.buses.device⟩

/-- The bus of a slot's device, by the frame. -/
def Frame.bus (F : Frame) (i : SlotNo) : Option BusNo :=
  (F.slot i).device.map (fun d => F.device[d.val].bus)

theorem frameOf_setSlot {s : State} {i : SlotNo} {r : Slot}
    (h : descriptor r = descriptor (s.slot i)) : frameOf (s.setSlot i r) = frameOf s := by
  unfold frameOf
  congr 1
  funext j
  rw [State.setSlot_slot]
  split
  · rename_i hij; rw [h, hij]
  · rfl

theorem frameOf_completeSlot (e : Entry) (done : Bool) (s : State) :
    frameOf (completeSlot e done s) = frameOf s := by
  unfold completeSlot
  split
  · rfl
  · dsimp only
    split
    · exact frameOf_setSlot rfl
    · exact frameOf_setSlot rfl

theorem frameOf_applyLocal (x : PendingRecord) (s : State) :
    frameOf (applyLocal x s) = frameOf s := frameOf_setSlot rfl

/-! ### The moves of one piece -/

/-- R50 to R52, R59: what the end of a record, or its release, makes of its sealed batch. -/
inductive BatchMove (b : Batch) : Batch → Prop
  | completed : b.isSealed = true → BatchMove b Batch.empty
  | tallied (o : RecordOutcome) : b.isSealed = true → (b.tally o).unresolved ≠ 0 →
      BatchMove b (b.tally o)
  | releasing : b.isSealed = true → BatchMove b { b with state := .releasing }

/-- Two entries that a bus would carry out alike, for one slot. -/
structure SameEntry (e e' : Entry) : Prop where
  kind : e'.kind = e.kind
  device : e'.device = e.device
  value : e'.value = e.value
  slot : e'.slot = e.slot

theorem SameEntry.refl (e : Entry) : SameEntry e e := ⟨rfl, rfl, rfl, rfl⟩

/-- Entries have left the queue, or changed in their marks. -/
structure Reduced (q q' : List Entry) : Prop where
  length : q'.length ≤ q.length
  same : ∀ e' ∈ q', ∃ e ∈ q, SameEntry e e'

theorem reduced_sublist {q q' : List Entry} (h : q'.Sublist q) : Reduced q q' :=
  ⟨h.length_le, fun e he => ⟨e, h.subset he, .refl e⟩⟩

theorem reduced_map {q l : List Entry} {f : Entry → Entry} (h : l.Sublist q)
    (hf : ∀ e, SameEntry e (f e)) : Reduced q (l.map f) := by
  refine ⟨by rw [List.length_map]; exact h.length_le, fun e' he' => ?_⟩
  obtain ⟨e, he, rfl⟩ := List.mem_map.mp he'
  exact ⟨e, h.subset he, hf e⟩

/-- R31, R34: owners and the token are given up, and leases are counted down or cleared. -/
structure ClaimMove (c c' : ClaimTable) : Prop where
  owner : ∀ i : SlotNo, c'.owner[i.val] = none ∨ c'.owner[i.val] = c.owner[i.val]
  token : c'.token = none ∨ c'.token = c.token
  lease : ∀ k : Client, c'.lease[k.val] = { setting := 0, counter := 0 } ∨
    c'.lease[k.val].setting = c.lease[k.val].setting ∧
      c'.lease[k.val].counter ≤ c.lease[k.val].counter

/-! ### Batches and the store -/

/-- A table law that a move of one batch keeps, and the removal of records. -/
structure BookLaw (P : State → Prop) : Prop extends TableLaw P where
  batch : ∀ (s : State) (k : Client) (n : Fin 4) (b : Batch), BatchMove (s.context k n) b → P s →
    P (s.setContext k n b)
  sealList : ∀ (s : State) (l : List BatchRef), P s → P (s.setSealList l)
  unstore : ∀ (s : State) (p : PendingRecord → Bool), P s → P (s.setStore (s.store.filter p))

theorem sealedContext_isSealed {s : State} {r : BatchRef} {n : Fin 4}
    (h : s.sealedContext r = some n) :
    (s.context r.client n).isSealed = true ∧ (s.context r.client n).id = r.id := by
  have hfound := List.find?_some h
  simpa using hfound

namespace BookLaw

variable {P : State → Prop} (B : BookLaw P)
include B

theorem completeBatch {r : BatchRef} {n : Fin 4} {w : Work} (b : Batch) (o : BatchOutcome)
    (hn : (w.st.context r.client n).isSealed = true) (h : P w.st) :
    P (completeBatch r n b o w).st :=
  B.sealList _ _ (B.batch _ _ _ _ (.completed hn) h)

theorem countOutcome (r : BatchRef) (o : RecordOutcome) {w : Work} (h : P w.st) :
    P (countOutcome r o w).st := by
  rcases countOutcome_cases r o w with ⟨-, e⟩ | ⟨n, b, hn, rfl, ⟨-, e⟩ | ⟨hleft, e⟩⟩ <;> rw [e]
  · exact h
  · exact B.completeBatch _ _ (sealedContext_isSealed hn).1 h
  · exact B.batch _ _ _ _ (.tallied o (sealedContext_isSealed hn).1 hleft) h

theorem resolve (r : BatchRef) (position : Nat) (o : RecordOutcome) (w : Work) (h : P w.st) :
    P (resolve r position o w).st := B.countOutcome r o (B.unstore _ _ h)

theorem supersedeDeferred (i : SlotNo) {w : Work} (h : P w.st) :
    P (supersedeDeferred i w).st := by
  unfold Machine.supersedeDeferred
  split
  · exact h
  · exact B.resolve _ _ _ _ h

theorem tellSuperseded (e : Entry) (i : SlotNo) {w : Work} (h : P w.st) :
    P (tellSuperseded e i w).st := by
  unfold Machine.tellSuperseded
  split
  · exact B.resolve _ _ _ _ h
  all_goals exact h

theorem markReleasing (r : BatchRef) {s : State} (h : P s) : P (markReleasing r s) := by
  unfold Machine.markReleasing
  split
  · exact h
  · exact B.batch _ _ _ _ (.releasing (sealedContext_isSealed ‹_›).1) h

theorem resetBatches {w : Work} (h : P w.st) : P (resetBatchesAndStore w).st := by
  have hfold : P (w.st.batches.sealList.foldl resetBatch w).st :=
    List.foldlRecOn (motive := fun w : Work => P w.st) _ _ h fun w hw r _ => by
      unfold resetBatch
      split
      · exact hw
      · exact B.completeBatch _ _ (sealedContext_isSealed ‹_›).1 hw
  unfold resetBatchesAndStore
  have hempty := B.unstore _ (fun _ => false) hfold
  rw [List.filter_false] at hempty
  exact B.sealList _ _ hempty

end BookLaw

/-! ### All pieces -/

/-- A law `P` of the states with frame `F`, on the single pieces. `Good` holds of every pending record,
and `GoodSlot` of every slot on the prime list. -/
structure PieceLaw (F : Frame) (Good : PendingRecord → Prop) (GoodSlot : SlotNo → Prop)
    (P : State → Prop) : Prop extends BookLaw P where
  frame : ∀ s : State, P s → frameOf s = F
  good : ∀ (s : State) (x : PendingRecord), P s → x ∈ s.store → Good x
  goodSlot : ∀ (s : State) (i : SlotNo), P s → i ∈ s.gen.primeList → GoodSlot i
  gen : ∀ (s : State) (g : Generator), GenMove s.gen g → P s → P (s.setGen g)
  primes : ∀ s : State, s.gen.run = .priming → P s → P (s.setGen
    { s.gen with primeList := s.primeSlots, primesOutstanding := s.primeSlots.length })
  outputs : ∀ (s : State) (v : Vector TimingOutput 12), P s → P { s with outputs := v }
  marks : ∀ s : State, P s → P (advanceMarks s)
  probes : ∀ (s : State) (k : Client) (n : Nat), P s → P (s.setProbes k n)
  queue : ∀ (s : State) (b : BusNo) (q : List Entry), Reduced (s.queue b) q → P s →
    P (s.setQueue b q)
  write : ∀ (s : State) (b : BusNo) (x : PendingRecord) (d : DeviceNo) (late : Bool), Good x →
    (s.slot x.slot).device = some d → (s.device d).bus = b → (s.queue b).length < 32 → P s →
    P (s.setQueue b (s.queue b ++ [writeEntry (s.slot x.slot) d x late]))
  prime : ∀ (s : State) (b : BusNo) (i : SlotNo) (d : DeviceNo), GoodSlot i →
    (s.slot i).device = some d → (s.device d).bus = b → (s.queue b).length < 32 → P s →
    P (s.setQueue b (s.queue b ++ [slotEntry .prime i (s.slot i) d (s.slot i).live .priming]))
  recordState : ∀ (s : State) (x : PendingRecord) (st : RecordState), P s →
    P (setRecordState x st s)
  applyLocal : ∀ (s : State) (x : PendingRecord), Good x → (s.slot x.slot).device = none → P s →
    P (applyLocal x s)
  complete : ∀ (s : State) (b : BusNo) (e : Entry) (rest : List Entry) (done : Bool),
    s.queue b = e :: rest → P s → P (completeSlot e done (s.setQueue b rest))
  engine : ∀ (s : State) (b : BusNo) (e : Engine), e.speed = (s.engine b).speed → P s →
    P (s.setEngine b e)
  claims : ∀ (s : State) (c : ClaimTable), ClaimMove s.claims c → P s → P { s with claims := c }
  dropOpen : ∀ (s : State) (k : Client) (n : Fin 4), (s.context k n).state = .opened → P s →
    P (s.setContext k n Batch.empty)

theorem claimMove_lapsed (k : Client) (s : State) :
    ClaimMove s.claims (lapsedClaims k s).claims := by
  rw [← lapsed_claims]
  refine ⟨fun i => ?_, ?_, fun j => ?_⟩
  · refine (ite_eq_or_eq (s.owner i = some k) none (s.owner i)).imp ?_ ?_ <;>
      exact (lapsed_owner k s i).trans
  · rw [lapsed_token]; exact ite_eq_or_eq ..
  · refine .inr ?_
    have hl := lapsed_lease k s j
    change (lapsed k s).claims.lease[j.val] = _ at hl
    rw [hl]
    split
    · rename_i hkj; subst hkj; exact ⟨rfl, Nat.zero_le _⟩
    · exact ⟨rfl, Nat.le_refl _⟩

theorem claimMove_counted (k : Client) (s : State) :
    ClaimMove s.claims (s.setLease k (Lease.counted (s.lease k))).claims := by
  refine ⟨fun _ => .inr rfl, .inr rfl, fun j => .inr ?_⟩
  have hl := State.setLease_lease s k (Lease.counted (s.lease k)) j
  change (s.setLease k (Lease.counted (s.lease k))).claims.lease[j.val] = _ at hl
  rw [hl]
  split
  · rename_i hkj
    subst hkj
    refine ⟨rfl, ?_⟩
    change (if _ then _ else _) ≤ (s.lease k).counter
    split
    · exact Nat.le_refl _
    · exact Nat.sub_le _ _
  · exact ⟨rfl, Nat.le_refl _⟩

theorem detachClaims_frame (k : Client) (s : State) :
    detachClaims k s = { s with claims := (detachClaims k s).claims } := by
  unfold detachClaims
  dsimp only
  split <;> rfl

theorem detachClaims_owner (k : Client) (s : State) (i : SlotNo) :
    (detachClaims k s).owner i = if s.owner i = some k then none else s.owner i := by
  rw [← releaseAll_owner]
  unfold detachClaims
  dsimp only
  split <;> rfl

theorem detachClaims_token (k : Client) (s : State) : (detachClaims k s).claims.token =
    if s.claims.token = some k then none else s.claims.token := by
  unfold detachClaims
  by_cases h : s.claims.token = some k
  · have hr : (releaseAll k s).claims.token = some k := h
    rw [if_pos h]; dsimp only; rw [if_pos hr]; rfl
  · have hr : (releaseAll k s).claims.token ≠ some k := h
    rw [if_neg h]; dsimp only; rw [if_neg hr]; rfl

theorem detachClaims_lease (k : Client) (s : State) (j : Client) : (detachClaims k s).lease j =
    if k = j then { setting := 0, counter := 0 } else s.lease j := by
  unfold detachClaims
  dsimp only
  rw [State.setLease_lease]
  split
  · rfl
  · split <;> rfl

theorem claimMove_detach (k : Client) (s : State) :
    ClaimMove s.claims (detachClaims k s).claims := by
  refine ⟨fun i => ?_, ?_, fun j => ?_⟩
  · refine (ite_eq_or_eq (s.owner i = some k) none (s.owner i)).imp ?_ ?_ <;>
      exact (detachClaims_owner k s i).trans
  · rw [detachClaims_token]; exact ite_eq_or_eq ..
  · have hl := detachClaims_lease k s j
    change (detachClaims k s).claims.lease[j.val] = _ at hl
    rw [hl]
    split
    · exact .inl rfl
    · exact .inr ⟨rfl, Nat.le_refl _⟩

theorem openContext_opened {s : State} {k : Client} {n : Fin 4}
    (h : s.openContext k = some n) : (s.context k n).state = .opened := by
  have hfound := List.find?_some h
  simpa using hfound

theorem sameEntry_late (d : Epoch) (e : Entry) : SameEntry e
    (if !e.onBus && e.kind == .write && e.deadline == some d then { e with late := true }
      else e) := by
  split <;> exact ⟨rfl, rfl, rfl, rfl⟩

theorem reduced_markLate (d : Epoch) (q : List Entry) : Reduced q (markLate d q) :=
  reduced_map (.refl q) (sameEntry_late d)

theorem reduced_withoutPrimes (q : List Entry) : Reduced q (withoutPrimes q) :=
  reduced_map List.filter_sublist fun e => by split <;> exact ⟨rfl, rfl, rfl, rfl⟩

theorem reduced_withoutClient (k : Client) (q : List Entry) : Reduced q (withoutClient k q) :=
  reduced_map List.filter_sublist fun e => by split <;> exact ⟨rfl, rfl, rfl, rfl⟩

theorem reduced_afterReset (q : List Entry) :
    Reduced q ((q.filter (·.onBus)).map Entry.afterReset) :=
  reduced_map List.filter_sublist fun e => by
    unfold Entry.afterReset
    split <;> exact ⟨rfl, rfl, rfl, rfl⟩

theorem reduced_handOver (n : Nat) (stamp : Option Epoch) (q : List Entry) :
    Reduced q (handOver n stamp q) := by
  refine ⟨?_, fun e' he' => ?_⟩
  · have h := congrArg List.length (List.take_append_drop n q)
    rw [List.length_append] at h
    rw [handOver, List.length_append, List.length_map, h]
  · rcases List.mem_append.mp he' with h | h
    · obtain ⟨e, he, rfl⟩ := List.mem_map.mp h
      exact ⟨e, List.mem_of_mem_take he, ⟨rfl, rfl, rfl, rfl⟩⟩
    · exact ⟨e', List.mem_of_mem_drop h, .refl e'⟩

namespace PieceLaw

variable {F : Frame} {Good : PendingRecord → Prop} {GoodSlot : SlotNo → Prop} {P : State → Prop}
  (L : PieceLaw F Good GoodSlot P)
include L

theorem slotBus {s : State} (h : P s) (i : SlotNo) : s.slotBus i = F.bus i := by
  rw [← L.frame s h]; rfl

/-! ### Supersede and release (R69 to R72, R111, R112) -/

theorem supersede (b : BusNo) (i : SlotNo) {w : Work} (h : P w.st) : P (supersede b i w).st := by
  rcases supersede_cases b i w with ⟨-, e⟩ | ⟨e, -, -, he⟩
  · rwa [e]
  · rw [he]
    exact L.tellSuperseded _ _ (L.queue _ _ _ (reduced_sublist List.eraseP_sublist) h)

theorem releaseDownstream {x : PendingRecord} {d : DeviceNo} {w : Work} (hx : Good x)
    (hd : (w.st.slot x.slot).device = some d) (h : P w.st) :
    P (releaseDownstream x d w).st := by
  obtain ⟨b, v, hb, rfl, ⟨hroom, e⟩ | ⟨-, e⟩⟩ := releaseDownstream_cases x d w
  · have hv : P (Machine.supersede b x.slot (Machine.supersedeDeferred x.slot w)).st :=
      L.supersede _ _ (L.supersedeDeferred _ h)
    have hslot : (Machine.supersede b x.slot (Machine.supersedeDeferred x.slot w)).st.slot x.slot =
        w.st.slot x.slot := by
      unfold State.slot
      rw [supersede_slots, supersedeDeferred_slots]
    rw [e]
    refine L.recordState _ _ _ (L.write _ b x d false hx (by rw [hslot, hd]) ?_ hroom hv)
    rw [hb]
    unfold State.device
    rw [supersede_buses, supersedeDeferred_buses]
  · rw [e]
    exact L.recordState _ _ _ (L.supersede _ _ (L.supersedeDeferred _ h))

theorem releaseRecord {x : PendingRecord} {w : Work} (hx : Good x) (h : P w.st) :
    P (releaseRecord w x).st := by
  have hm : P (Machine.markReleasing x.batch w.st) := L.markReleasing _ h
  unfold Machine.releaseRecord
  dsimp only
  split
  · exact L.resolve _ _ _ _ (L.applyLocal _ x hx ‹_› hm)
  · exact L.releaseDownstream hx ‹_› hm

theorem releaseDue {w : Work} (h : P w.st) : P (releaseDue w).st := by
  unfold Machine.releaseDue
  refine List.foldlRecOn (motive := fun w : Work => P w.st) _ _ h fun v hv x hx => ?_
  exact L.releaseRecord (L.good w.st x h (List.mem_of_mem_filter hx)) hv

theorem boundary (w : Work) (h : P w.st) : P (boundary w).st :=
  L.draws _ _ (L.marks _ (L.outputs _ _ (L.releaseDue (w := { w with out := [] }) h)))

/-! ### Refill and placement (R73, R97) -/

theorem refill (b : BusNo) {s : State} (h : P s) : P (refill b s) := by
  unfold Machine.refill
  refine List.foldlRecOn (motive := P) _ _ h fun t ht x hx => ?_
  have hstore := (deferredSet_device hx).1
  have hbus : s.slotBus x.slot = some b := by
    have := (List.mem_filter.mp hx).2
    simpa using (Bool.and_eq_true_iff.mp this).2
  rcases refillOne_cases b t x with e | ⟨d, hd, hroom, e⟩ <;> rw [e]
  · exact ht
  · refine L.recordState _ _ _ (L.write _ b x d _ (L.good s x h hstore) hd ?_ hroom ht)
    rw [L.slotBus h, ← L.slotBus ht, State.slotBus, hd] at hbus
    exact Option.some.inj hbus

theorem placePrimes {s : State} (h : P s) : P (placePrimes s) := by
  unfold Machine.placePrimes
  refine List.foldlRecOn (motive := P) _ _ h fun t ht i hi => ?_
  rcases placePrime_cases t i with e | ⟨d, b, hd, hb, hroom, e⟩ <;> rw [e]
  · exact ht
  · refine L.gen _ _ (genMove_sameRun List.filter_sublist rfl ⟨rfl, rfl, rfl, rfl, rfl⟩) ?_
    exact L.prime _ b i d (L.goodSlot s i h hi) hd hb.symm hroom ht

theorem fillPlaces (b : BusNo) {s : State} (h : P s) : P (fillPlaces b s) :=
  ite_keeps_right (L.placePrimes (L.refill b h)) (L.refill b h)

/-! ### The operations on the queues -/

theorem markQueuesLate (d : Epoch) {s : State} (h : P s) : P (markQueuesLate d s) := by
  have h0 := L.queue s 0 (markLate d (s.queue 0)) (reduced_markLate d _) h
  have hother : (s.setQueue 0 (markLate d (s.queue 0))).queue 1 = s.queue 1 :=
    (State.setQueue_queue ..).trans (if_neg (by decide))
  exact L.queue _ 1 (markLate d (s.queue 1)) (hother ▸ reduced_markLate d _) h0

theorem abandonPrimes {s : State} (h : P s) : P (abandonPrimes s) := by
  unfold Machine.abandonPrimes
  dsimp only
  refine L.refill 1 (L.queue _ _ _ (reduced_withoutPrimes _) (L.refill 0 ?_))
  exact L.queue _ _ _ (reduced_withoutPrimes _) h

theorem noteAttempts (b : BusNo) {s : State} (h : P s) : P (noteAttempts b s) := by
  unfold Machine.noteAttempts
  split
  · exact h
  · refine L.queue _ _ _ (reduced_map (.refl _) fun e => ?_) h
    split <;> exact ⟨rfl, rfl, rfl, rfl⟩

theorem resetQueueEntries {s : State} (h : P s) : P (resetQueueEntries s) := by
  have hprobes : P (allClients.foldl
      (fun t k => t.setProbes k (t.probes k - waitingProbes s k)) s) :=
    List.foldlRecOn (motive := P) _ _ h fun t ht k _ => L.probes t k _ ht
  unfold Machine.resetQueueEntries
  dsimp only
  exact L.queue _ _ _ (reduced_afterReset _) (L.queue _ _ _ (reduced_afterReset _) hprobes)

theorem tickLease (w : Work) (k : Client) (h : P w.st) : P (tickLease w k).st := by
  rw [tickLease_st]
  split
  · have hc : P (lapsedClaims k w.st) := by
      rw [lapsedClaims_frame]; exact L.claims _ _ (claimMove_lapsed k _) h
    unfold lapsed
    split
    · exact hc
    · refine L.dropOpen _ _ _ ?_ hc
      rw [lapsedClaims_frame]
      exact openContext_opened ‹_›
  · exact L.claims _ _ (claimMove_counted k _) h

theorem detachQueue (k : Client) (s : State) (b : BusNo) (h : P s) : P (detachQueue k s b) := by
  unfold Machine.detachQueue
  dsimp only
  exact L.fillPlaces b (L.queue _ _ _ (reduced_withoutClient k _) (L.probes _ _ _ h))

theorem detachBatch (k : Client) {s : State} (h : P s) :
    P (detachBatch k (detachClaims k s)) := by
  have hc : P (Machine.detachClaims k s) := by
    rw [detachClaims_frame]; exact L.claims _ _ (claimMove_detach k s) h
  unfold Machine.detachBatch
  split
  · exact hc
  · exact L.dropOpen _ _ _ (openContext_opened ‹_›) hc

theorem workLaw : WorkLaw P where
  toTableLaw := L.toTableLaw
  resolve := L.resolve
  gen := L.gen
  outputs s v _ h := L.outputs s v h
  marks := L.marks
  probes := L.probes
  late _ d h := L.markQueuesLate d h
  abandon _ h := L.abandonPrimes h

/-- The pieces carry a law through every composite operation. -/
theorem opLaw : OpLaw P (fun _ => P) where
  work := L.workLaw
  between _ := L.workLaw
  pop s b e rest hq h := L.queue s b rest (reduced_sublist (hq ▸ List.sublist_cons_self e rest)) h
  complete := L.complete
  fill b _ h := L.fillPlaces b h
  place _ h := L.placePrimes h
  primes := L.primes
  boundary := L.boundary
  engine := L.engine
  attempts b _ h := L.noteAttempts b h
  handOver s b n stamp h := L.queue s b _ (reduced_handOver n stamp _) h
  tickLease := L.tickLease
  detachQueue := L.detachQueue
  resetTables _ h := L.resetBatches (L.draws _ _ (L.resetQueueEntries h))

end PieceLaw

end Sys2Proof.Pieces
end


section
/-! PROOFS. How a law is carried through the requests, and through every step, from what it says of the
single pieces. -/

set_option Elab.async false

namespace Sys2Proof.PieceRequests

open Sys2Proof Sys2Proof.Machine Sys2Proof.Commands Sys2Proof.Rules Sys2Proof.Effects
open Sys2Proof.Schedule Sys2Proof.Carrying Sys2Proof.Pieces

/-- A law that the requests keep which change no more than one table each. -/
structure RequestLaw (P : State → Prop) : Prop where
  defineSlot : ∀ (s : State) (i : SlotNo) (d : Descriptor) (register : Half)
    (device format kind : Byte) (min max initial : Value), isLocal i = false →
    s.gen.run = .stopped → s.busy i = false →
    descriptorOf device format kind min max initial = some d →
    (s.device d.device).isPresent = true → registerFits (s.device d.device) register = true → P s →
    P (s.setSlot i (definedSlot d register min max initial))
  undefineSlot : ∀ (s : State) (i : SlotNo), isLocal i = false → s.gen.run = .stopped →
    s.pendingCount i = 0 → s.queuedCount i = 0 → P s →
    P ((s.setSlot i Slot.undefined).setOwner i none)
  claim : ∀ (s : State) (o : Vector (Option Client) 256),
    (∀ i : SlotNo, o[i.val] = s.owner i ∨ (s.slot i).defined = true) → P s → P (withOwners s o)
  token : ∀ (s : State) (t : Option Client), P s → P (s.setToken t)
  setLease : ∀ (s : State) (k : Client) (n : Nat), settingOk n = true → P s →
    P (s.setLease k { setting := n, counter := n })
  openBatch : ∀ (s : State) (k : Client) (n : Fin 4) (id : Nat) (b : Batch),
    s.openContext k = none → (s.context k n).state = .free →
    id = s.freshId k 3 (s.previousId k) → b.records = [] →
    b = { Batch.empty with
      state := .opened, id := id, kind := b.kind, epoch := b.epoch, policy := b.policy } → P s →
    P ((s.setContext k n b).setPreviousId k id)
  restaged : ∀ (s : State) (k : Client) (n : Fin 4) (b : Batch),
    (s.context k n).state = .opened → StagedFrom s (s.context k n) b → P s → P (s.setContext k n b)
  sealBatch : ∀ (s : State) (k : Client) (n : Fin 4) (t : Epoch) (slipped : Bool),
    (s.context k n).state = .opened → (s.context k n).records ≠ [] →
    (∀ x ∈ (s.context k n).records, (s.slot x.slot).defined = true) →
    (∀ x ∈ (s.context k n).records, ∀ y ∈ s.store, y.slot = x.slot → y.target ≠ t) →
    s.store.length + (s.context k n).records.length ≤ 192 → P s → P (sealTaken k n t slipped s)
  setGeometry : ∀ (s : State) (lspan vspan wopen wclose : Nat) (e : Edge),
    s.gen.run = .stopped → geometryOk lspan vspan wopen wclose = true → P s → P (s.setGen
      { s.gen with lspan := lspan, vspan := vspan, wopen := wopen, wclose := wclose, edge := e })
  defineDevice : ∀ (s : State) (d : DeviceNo) (r : Device), s.gen.run = .stopped →
    (s.inUse d = false ∨ changesIdentity (s.device d) r = false) →
    (r.isPresent = false ∨ s.addressTaken d r = false) → P s → P (s.setDevice d r)
  busSpeed : ∀ (s : State) (b : BusNo) (v : Speed), P s →
    P (s.setEngine b { s.engine b with speed := v })
  fetch : ∀ (s : State) (k : Client) (n : Nat), P s →
    P (s.setEventQueue k ((s.eventQueue k).fetch n s.gen.c))
  subscribe : ∀ (s : State) (k : Client) (set divider : Byte),
    subscriptionOk set divider = true → P s →
    P (s.setEventQueue k ((s.eventQueue k).subscribe set divider))
  detachEvents : ∀ (s : State) (k : Client), P s →
    P (s.setEventQueue k (s.eventQueue k).detach)

/-- What else the requests do: to queues, engines, and batches that are given up. -/
structure QueueRequestLaw (P : State → Prop) : Prop where
  claims : ∀ (s : State) (c : ClaimTable), ClaimMove s.claims c → P s → P { s with claims := c }
  dropOpen : ∀ (s : State) (k : Client) (n : Fin 4), (s.context k n).state = .opened → P s →
    P (s.setContext k n Batch.empty)
  cancel : ∀ (s : State) (r : BatchRef) (n : Fin 4), s.sealedContext r = some n → P s →
    P (((s.setStore (s.store.filter (fun x => x.batch != r))).setContext r.client n
      Batch.empty).setSealList (s.batches.sealList.filter (· != r)))
  writeNow : ∀ (s : State) (b : BusNo) (i : SlotNo) (d : DeviceNo) (v : Value) (k : Client)
    (tag : Byte), (s.slot i).defined = true → (s.slot i).cls ≠ .epoch →
    s.admissible i v = true → (s.slot i).device = some d → (s.device d).bus = b → P s →
    P (append b (slotEntry .now i (s.slot i) d v (.client k tag)) (supersede b i (begin s)).st)
  probe : ∀ (s : State) (b : BusNo) (d : DeviceNo) (k : Client) (tag : Byte) (register : Half)
    (width : Nat) (order : ByteOrder), (s.device d).isPresent = true → (s.device d).bus = b →
    P s → P ((append b (probeEntry k tag d register width order) s).setProbes k (s.probes k + 1))
  recover : ∀ (s : State) (b : BusNo) (k : Client), (s.engine b).state = .fault → P s →
    P (s.setEngine b { s.engine b with
      state := .recovery, requester := some k, clock := (s.engine b).speed, xfer := none,
      stretching := false, stretchCount := 0, pulses := 0, sent := [] })

section
variable {P : State → Prop} {Q : BusNo → State → Prop} (R : RequestLaw P) (A : QueueRequestLaw P)
include R A

/-- START, STOP, RESET_SCHEDULE and DETACH act by the composite operations; every other request on its
own table. -/
theorem effect_keeps (start : ∀ (k : Client) (m : Mode) (epoch : Epoch) (s : State) (w : Work),
      s.gen.run = .stopped →
      w = (dropStale epoch (begin (startRequested k s m epoch))).update beginPriming → P s →
      P w.st ∧ P (endPriming w).st)
    (stop : ∀ (k : Client) (o : StopOption) (s : State), P s → P (stopSchedule k o s))
    (reset : ∀ s : State, P s → P (resetBatchesAndStore
      (begin (resetQueueEntries (setIssuer none (enterStopped s))).draw)).st.draw.draw)
    (detach : ∀ (k : Client) (s : State), P s → P (detachTables k s))
    (draws : ∀ (s : State) (n : Nat), P s → P { s with draws := n })
    {i : Instr} {s t : State} (e : Effect s i t) (h : P s) : P t := by
  have howners : ∀ o, OnlyReleases s o → P (withOwners s o) := fun o ho =>
    A.claims s _ ⟨ho, .inr rfl, fun _ => .inr ⟨rfl, Nat.le_refl _⟩⟩ h
  cases e with
  | reports => exact h
  | draws => exact draws _ _ h
  | defineSlot hl hr hb hd hp hf =>
    exact R.defineSlot _ _ _ _ _ _ _ _ _ _ hl hr hb hd hp hf h
  | undefineSlot hl hr hp hq => exact R.undefineSlot _ _ hl hr hp hq h
  | writeNow hr hd hc ha hdev hb =>
    subst hr; exact A.writeNow _ _ _ _ _ _ _ hd hc ha hdev hb.symm h
  | claim ho => exact R.claim _ _ ho h
  | release ho => exact howners _ ho
  | revoke ho => exact howners _ ho
  | claimSchedule => exact R.token _ _ h
  | releaseSchedule => exact R.token _ _ h
  | setLease hs => exact R.setLease _ _ _ hs h
  | openBatch ho hf hid =>
    exact R.openBatch s _ _ _ _ ho (by simpa using List.find?_some hf) hid rfl rfl h
  | restaged _ ho hb => exact R.restaged _ _ _ _ (openContext_opened ho) hb h
  | abort ho => exact A.dropOpen _ _ _ (openContext_opened ho) h
  | sealBatch ho hb hne hd hc hl =>
    subst hb; exact R.sealBatch _ _ _ _ _ (openContext_opened ho) hne hd hc hl h
  | cancel hr hn => subst hr; exact A.cancel _ _ _ hn h
  | setGeometry hr hg => exact R.setGeometry _ _ _ _ _ _ hr hg h
  | start hr hm hw hp => exact (start _ _ _ _ _ hr hw h).1
  | startAtOnce hr hm hw hp => exact (start _ _ _ _ _ hr hw h).2
  | stop => exact stop _ _ _ h
  | resetSchedule => exact reset _ h
  | readDevice hp => exact A.probe _ _ _ _ _ _ _ _ hp rfl h
  | defineDevice hr hd hu ha => exact R.defineDevice _ _ _ hr hu ha h
  | busConfig => exact R.busSpeed _ _ _ h
  | busRecover hf => exact A.recover _ _ _ hf h
  | fetch => exact R.fetch _ _ _ h
  | subscribe hs => exact R.subscribe _ _ _ _ hs h
  | detach => rw [detachClient_eq]; exact R.detachEvents _ _ (detach _ _ h)

end

/-- The composite operations and the requests carry a law `Inv` through every step, when they do so for
the states of each frame. -/
theorem kept_of_opLaw {Inv : State → Prop} {Q : Frame → BusNo → State → Prop}
    (O : ∀ F, OpLaw (fun s => frameOf s = F ∧ Inv s) (Q F)) (R : RequestLaw Inv)
    (A : QueueRequestLaw Inv) (hreset : Inv State.reset) : KeptByEveryStep Inv := by
  have L : TableLaw Inv :=
    { host := fun s g h => ((O (frameOf s)).work.host s g ⟨rfl, h⟩).2
      phase := fun s p h => ((O (frameOf s)).work.phase s p ⟨rfl, h⟩).2
      pending := fun s l h => ((O (frameOf s)).work.pending s l ⟨rfl, h⟩).2
      draws := fun s n h => ((O (frameOf s)).work.draws s n ⟨rfl, h⟩).2
      lease := fun s k h => ((O (frameOf s)).work.lease s k ⟨rfl, h⟩).2
      offer := fun s o h => ((O (frameOf s)).work.offer s o ⟨rfl, h⟩).2 }
  have E : EventLaw Inv :=
    { tick := fun s _ _ h => ((O (frameOf s)).tick _ _ ⟨rfl, h⟩).2
      lapse := fun s k h => ((O (frameOf s)).tickLease _ k ⟨rfl, h⟩).2
      line := fun s h => ((O (frameOf s)).work.advanceLine ⟨rfl, h⟩).2
      windowOpen := fun s _ h => ((O (frameOf s)).work.handWindowOpen ⟨rfl, h⟩).2
      windowClose := fun s _ h => ((O (frameOf s)).work.handWindowClose ⟨rfl, h⟩).2
      epochEnd := fun s _ h => ((O (frameOf s)).schedule.endEpoch ⟨rfl, h⟩).2
      trigger := fun s h => ((O (frameOf s)).schedule.takeTrigger ⟨rfl, h⟩).2
      transferStart := fun s b dataLow _ h => ((O (frameOf s)).startTransfer b dataLow ⟨rfl, h⟩).2
      nack := fun s b t n dataLow ha h =>
        ((O (frameOf s)).eventLaw.nack s b t n dataLow ha ⟨rfl, h⟩).2
      transferEnd := fun s b t bytes ha h =>
        ((O (frameOf s)).eventLaw.transferEnd s b t bytes ha ⟨rfl, h⟩).2
      stretch := fun s b passed _ h => ((O (frameOf s)).exceedStretch b passed ⟨rfl, h⟩).2
      recovery := fun s b lowLooks freed dataLow _ h =>
        ((O (frameOf s)).endRecovery b lowLooks freed dataLow ⟨rfl, h⟩).2
      stretchEnd := fun s b h => ((O (frameOf s)).eventLaw.stretchEnd s b ⟨rfl, h⟩).2 }
  refine keptByEveryStep_of_effects L E (fun e h => ?_) hreset
  refine effect_keeps R A (fun k m epoch s w hr hw h => ?_) (fun k o s h => ?_) (fun s h => ?_)
    (fun k s h => ?_) L.draws e h
  · have hw' := (O (frameOf s)).schedule.startPrimed k m epoch ⟨rfl, h⟩
    rw [← hw] at hw'
    exact ⟨hw'.2, ((O (frameOf s)).schedule.endPriming hw').2⟩
  · exact ((O (frameOf s)).schedule.stopSchedule k o ⟨rfl, h⟩).2
  · exact ((O (frameOf s)).resetSchedule ⟨rfl, h⟩).2
  · have hb : Inv (detachBatch k (detachClaims k s)) := by
      have hc : Inv (detachClaims k s) := by
        rw [detachClaims_frame]; exact A.claims _ _ (claimMove_detach k s) h
      unfold detachBatch
      split
      · exact hc
      · exact A.dropOpen _ _ _ (openContext_opened ‹_›) hc
    exact ((O (frameOf (detachBatch k (detachClaims k s)))).detachTables k ⟨rfl, hb⟩).2

/-- The entries that two requests put on a queue. -/
structure EntryLaw (P : State → Prop) : Prop where
  now : ∀ (s : State) (b : BusNo) (i : SlotNo) (d : DeviceNo) (v : Value) (k : Client)
    (tag : Byte), (s.slot i).defined = true → s.admissible i v = true →
    (s.slot i).device = some d → (s.device d).bus = b → (s.queue b).length < 32 → P s →
    P (s.setQueue b (s.queue b ++ [slotEntry .now i (s.slot i) d v (.client k tag)]))
  probe : ∀ (s : State) (b : BusNo) (d : DeviceNo) (k : Client) (tag : Byte) (register : Half)
    (width : Nat) (order : ByteOrder), (s.device d).isPresent = true → (s.device d).bus = b →
    (s.queue b).length < 32 → P s →
    P (s.setQueue b (s.queue b ++ [probeEntry k tag d register width order]))

theorem append_keeps {P : State → Prop} {s : State} {b : BusNo} {e : Entry} (h : P s)
    (ha : (s.queue b).length < 32 → P (s.setQueue b (s.queue b ++ [e]))) : P (append b e s) :=
  ite_keeps (fun hroom => ha ((hasRoom_iff s b).mp hroom)) h

section
variable {Inv : State → Prop} {Good : Frame → PendingRecord → Prop}
  {GoodSlot : Frame → SlotNo → Prop}
  (L : ∀ F, PieceLaw F (Good F) (GoodSlot F) (fun s => frameOf s = F ∧ Inv s))
include L

theorem queueRequestLaw (N : EntryLaw Inv) : QueueRequestLaw Inv where
  claims s c hc h := ((L (frameOf s)).claims s c hc ⟨rfl, h⟩).2
  dropOpen s k n hn h := ((L (frameOf s)).dropOpen s k n hn ⟨rfl, h⟩).2
  cancel s r n hn h := by
    have hu := (L (frameOf s)).unstore s (fun x => x.batch != r) ⟨rfl, h⟩
    have hc := (L (frameOf s)).batch (s.setStore (s.store.filter (fun x => x.batch != r)))
      r.client n Batch.empty (.completed (sealedContext_isSealed hn).1) hu
    exact ((L (frameOf s)).sealList ((s.setStore (s.store.filter
      (fun x => x.batch != r))).setContext r.client n Batch.empty) _ hc).2
  writeNow s b i d v k tag hd _ ha hdev hb h := by
    have hs : Inv (supersede b i (begin s)).st :=
      ((L (frameOf s)).supersede b i (w := begin s) ⟨rfl, h⟩).2
    have hslot : ∀ j, (supersede b i (begin s)).st.slot j = s.slot j := fun j => by
      unfold State.slot; rw [supersede_slots]; rfl
    have hbus : (supersede b i (begin s)).st.buses = s.buses := by rw [supersede_buses]; rfl
    refine append_keeps hs fun hroom => ?_
    rw [← hslot]
    refine N.now _ b i d v k tag (by rw [hslot, hd]) ?_ (by rw [hslot, hdev]) ?_ hroom hs
    · rw [← ha]
      unfold State.admissible
      rw [hslot]
    · exact (congrArg (fun u : Buses => u.device[d.val].bus) hbus).trans hb
  probe s b d k tag register width order hp hb h := by
    have ha : Inv (append b (probeEntry k tag d register width order) s) :=
      append_keeps h fun hroom => N.probe s b d k tag register width order hp hb hroom h
    exact ((L (frameOf (append b (probeEntry k tag d register width order) s))).probes _ _ _
      ⟨rfl, ha⟩).2
  recover s b k _ h := ((L (frameOf s)).engine s b { s.engine b with
    state := .recovery, requester := some k, clock := (s.engine b).speed, xfer := none,
    stretching := false, stretchCount := 0, pulses := 0, sent := [] } rfl ⟨rfl, h⟩).2

/-- The pieces and the requests carry a law through every step. -/
theorem kept_of_pieces (R : RequestLaw Inv) (N : EntryLaw Inv) (hreset : Inv State.reset) :
    KeptByEveryStep Inv :=
  kept_of_opLaw (fun F => (L F).opLaw) R (queueRequestLaw L N) hreset

end

end Sys2Proof.PieceRequests
end


section
/-! PROOFS. Laws of single tables, by their pieces: the places of stores and queues, the event queues,
the Claim Table. -/

set_option Elab.async false

namespace Sys2Proof.TableLaws

open Sys2Proof Sys2Proof.Machine Sys2Proof.Commands Sys2Proof.Rules Sys2Proof.Effects
open Sys2Proof.Schedule Sys2Proof.Carrying Sys2Proof.Pieces Sys2Proof.PieceRequests

/-- A property of the two queues, after one of them is written. -/
theorem forall_setQueue {p : BusNo → List Entry → Prop} {s : State} {b : BusNo} {q : List Entry}
    (h : ∀ c, p c (s.queue c)) (hq : p b q) : ∀ c, p c ((s.setQueue b q).queue c) := by
  intro c
  rw [State.setQueue_queue]
  split
  · rename_i hbc; exact hbc ▸ hq
  · exact h c

theorem forall_setEventQueue {p : EventQueue → Prop} {s : State} {k : Client} {q : EventQueue}
    (h : ∀ j, p (s.eventQueue j)) (hq : p q) : ∀ j, p ((s.setEventQueue k q).eventQueue j) := by
  intro j
  rw [State.setEventQueue_eventQueue]
  split
  · exact hq
  · exact h j

theorem forall_setLease {p : Lease → Prop} {s : State} {k : Client} {l : Lease}
    (h : ∀ j, p (s.lease j)) (hl : p l) : ∀ j, p ((s.setLease k l).lease j) := by
  intro j
  rw [State.setLease_lease]
  split
  · exact hl
  · exact h j

/-! ### Places (R63, R109) -/

theorem capacity_setQueue {s : State} {b : BusNo} {q : List Entry} (h : StoresWithinCapacity s)
    (hq : q.length ≤ 32) : StoresWithinCapacity (s.setQueue b q) :=
  ⟨forall_setQueue (p := fun _ q => q.length ≤ 32) h.1 hq, h.2⟩

theorem capacity_append {s : State} {b : BusNo} {e : Entry} (h : StoresWithinCapacity s)
    (hroom : (s.queue b).length < 32) : StoresWithinCapacity (s.setQueue b (s.queue b ++ [e])) :=
  capacity_setQueue h (by rw [List.length_append]; exact hroom)

theorem capacity_setStore {s : State} {l : List PendingRecord} (h : StoresWithinCapacity s)
    (hl : l.length ≤ s.store.length) : StoresWithinCapacity (s.setStore l) :=
  ⟨h.1, hl.trans h.2⟩

theorem capacity_same {s t : State} (h : StoresWithinCapacity s) (hq : t.queues = s.queues)
    (hs : t.store = s.store) : StoresWithinCapacity t := by
  refine ⟨fun b => ?_, hs ▸ h.2⟩
  unfold State.queue
  rw [hq]
  exact h.1 b

theorem capacity_pieces (F : Frame) : PieceLaw F (fun _ => True) (fun _ => True)
    (fun s => frameOf s = F ∧ StoresWithinCapacity s) where
  host _ _ h := h
  phase _ _ h := h
  pending _ _ h := h
  draws _ _ h := h
  lease _ _ h := h
  offer _ _ h := h
  batch _ _ _ _ _ h := h
  sealList _ _ h := h
  unstore _ _ h := ⟨h.1, capacity_setStore h.2 (List.length_filter_le _ _)⟩
  frame _ h := h.1
  good _ _ _ _ := trivial
  goodSlot _ _ _ _ := trivial
  gen _ _ _ h := h
  primes _ _ h := h
  outputs _ _ h := h
  marks _ h := h
  probes _ _ _ h := h
  queue _ b _ hq h := ⟨h.1, capacity_setQueue h.2 (hq.length.trans (h.2.1 b))⟩
  write _ _ _ _ _ _ _ _ hroom h := ⟨h.1, capacity_append h.2 hroom⟩
  prime _ _ _ _ _ _ _ hroom h := ⟨h.1, capacity_append h.2 hroom⟩
  recordState _ _ _ h := ⟨h.1, capacity_setStore h.2 (List.length_map _).le⟩
  applyLocal _ _ _ _ h := ⟨(frameOf_applyLocal _ _).trans h.1, h.2⟩
  complete s b _ rest _ hq h := by
    refine ⟨(frameOf_completeSlot ..).trans h.1, capacity_same (s := s.setQueue b rest)
      (capacity_setQueue h.2 ?_) (completeSlot_queues ..) (completeSlot_store ..)⟩
    have hlen := h.2.1 b
    rw [hq, List.length_cons] at hlen
    omega
  engine _ _ _ _ h := h
  claims _ _ _ h := h
  dropOpen _ _ _ _ h := h

theorem capacity_requests : RequestLaw StoresWithinCapacity where
  defineSlot _ _ _ _ _ _ _ _ _ _ _ _ _ _ _ _ h := h
  undefineSlot _ _ _ _ _ _ h := h
  claim _ _ _ h := h
  token _ _ h := h
  setLease _ _ _ _ h := h
  openBatch _ _ _ _ _ _ _ _ _ _ h := h
  restaged _ _ _ _ _ _ h := h
  sealBatch s k n t slipped _ _ _ _ hlen h := by
    refine ⟨h.1, ?_⟩
    change (s.store ++ _).length ≤ 192
    rw [List.length_append, BatchRequests.pendingList_eq, List.length_mapIdx]
    exact hlen
  setGeometry _ _ _ _ _ _ _ _ h := h
  defineDevice _ _ _ _ _ _ h := h
  busSpeed _ _ _ h := h
  fetch _ _ _ h := h
  subscribe _ _ _ _ _ h := h
  detachEvents _ _ h := h

theorem reset_capacity : StoresWithinCapacity State.reset := by
  refine ⟨fun b => ?_, Nat.zero_le _⟩
  rcases ScheduleEvents.bus_cases b with rfl | rfl <;> exact Nat.zero_le _

theorem capacity_kept : KeptByEveryStep StoresWithinCapacity :=
  kept_of_pieces capacity_pieces capacity_requests
    { now := fun _ _ _ _ _ _ _ _ _ _ _ hroom h => capacity_append h hroom
      probe := fun _ _ _ _ _ _ _ _ _ _ hroom h => capacity_append h hroom }
    reset_capacity

/-! ### Event queues (section 10.1) -/

theorem take_withinRules {q : EventQueue} (c : Epoch) (e : Event) (h : q.WithinRules) :
    (q.take c e).WithinRules := by
  obtain ⟨hrecords, hlost, hmark, hnomark⟩ := h
  obtain ⟨-, -, em, ed, ec⟩ := EventQueue.take_subscriptions q c e
  refine ⟨?_, ?_, by rwa [em, ed, ec], by rwa [em, ed, ec]⟩
  · unfold EventQueue.take
    split
    · rename_i hroom
      rw [List.length_append]
      exact hroom
    · exact hrecords
  · unfold EventQueue.take
    split
    · exact hlost
    · dsimp only; split <;> omega

theorem advanceMark_withinRules {q : EventQueue} (h : q.WithinRules) :
    q.advanceMark.WithinRules := by
  obtain ⟨hrecords, hlost, hmark, hnomark⟩ := h
  unfold EventQueue.advanceMark
  by_cases hm : q.mark = true
  · obtain ⟨h1, h255, hlt⟩ := hmark hm
    rw [if_pos hm]
    refine ⟨hrecords, hlost, fun _ => ⟨h1, h255, ?_⟩, fun hno => absurd (hm.symm.trans hno) (by decide)⟩
    dsimp only
    split <;> omega
  · rw [if_neg hm]
    exact ⟨hrecords, hlost, hmark, hnomark⟩

theorem fetch_withinRules {q : EventQueue} (n : Nat) (c : Epoch) (h : q.WithinRules) :
    (q.fetch n c).WithinRules := by
  have hdrop : ({ q with records := q.records.drop n } : EventQueue).WithinRules :=
    ⟨(by rw [List.length_drop]; exact (Nat.sub_le _ _).trans h.1), h.2⟩
  unfold EventQueue.fetch
  dsimp only
  split
  · exact hdrop
  · obtain ⟨hrecords, -, hmarks⟩ := take_withinRules c (.overflow q.lost) hdrop
    exact ⟨hrecords, Nat.zero_le _, hmarks⟩

theorem subscribe_withinRules {q : EventQueue} {set divider : Byte}
    (hok : subscriptionOk set divider = true) (h : q.WithinRules) :
    (q.subscribe set divider).WithinRules := by
  refine ⟨h.1, h.2.1, fun hm => ?_, fun hm => ?_⟩
  · have hm' : set.extractLsb' 2 1 = 1#1 := by simpa [EventQueue.subscribe] using hm
    have hd : divider ≠ 0x00#8 := by
      simpa [subscriptionOk, hm'] using (Bool.and_eq_true_iff.mp hok).2
    have hpos : 0 < divider.toNat := by
      rcases Nat.eq_zero_or_pos divider.toNat with h0 | h0
      · exact absurd (BitVec.eq_of_toNat_eq h0) hd
      · exact h0
    have hlt := divider.isLt
    simp only [EventQueue.subscribe, hm', beq_self_eq_true, if_true]
    omega
  · have hm' : (set.extractLsb' 2 1 == 1#1) = false := hm
    simp [EventQueue.subscribe, hm']

theorem detach_withinRules (q : EventQueue) : q.detach.WithinRules :=
  ⟨Nat.zero_le _, Nat.zero_le _, nofun, fun _ => ⟨rfl, rfl⟩⟩

theorem events_set {s : State} {k : Client} {q : EventQueue} (h : EventQueuesWithinRules s)
    (hq : q.WithinRules) : EventQueuesWithinRules (s.setEventQueue k q) :=
  forall_setEventQueue h hq

theorem events_same {s t : State} (h : EventQueuesWithinRules s) (he : t.events = s.events) :
    EventQueuesWithinRules t := by
  intro k
  unfold State.eventQueue
  rw [he]
  exact h k

theorem events_pieces (F : Frame) : PieceLaw F (fun _ => True) (fun _ => True)
    (fun s => frameOf s = F ∧ EventQueuesWithinRules s) where
  host _ _ h := h
  phase _ _ h := h
  pending _ _ h := h
  draws _ _ h := h
  lease _ _ h := h
  offer _ o h := ⟨h.1, events_set h.2 (take_withinRules _ _ (h.2 o.client))⟩
  batch _ _ _ _ _ h := h
  sealList _ _ h := h
  unstore _ _ h := h
  frame _ h := h.1
  good _ _ _ _ := trivial
  goodSlot _ _ _ _ := trivial
  gen _ _ _ h := h
  primes _ _ h := h
  outputs _ _ h := h
  marks s h := ⟨h.1, fun k => (ScheduleEvents.advanceMarks_eventQueue s k).symm ▸
    advanceMark_withinRules (h.2 k)⟩
  probes _ _ _ h := h
  queue _ _ _ _ h := h
  write _ _ _ _ _ _ _ _ _ h := h
  prime _ _ _ _ _ _ _ _ h := h
  recordState _ _ _ h := h
  applyLocal _ _ _ _ h := ⟨(frameOf_applyLocal _ _).trans h.1, h.2⟩
  complete s _ _ _ _ _ h := ⟨(frameOf_completeSlot ..).trans h.1,
    events_same (s := s) h.2 (completeSlot_events ..)⟩
  engine _ _ _ _ h := h
  claims _ _ _ h := h
  dropOpen _ _ _ _ h := h

theorem events_requests : RequestLaw EventQueuesWithinRules where
  defineSlot _ _ _ _ _ _ _ _ _ _ _ _ _ _ _ _ h := h
  undefineSlot _ _ _ _ _ _ h := h
  claim _ _ _ h := h
  token _ _ h := h
  setLease _ _ _ _ h := h
  openBatch _ _ _ _ _ _ _ _ _ _ h := h
  restaged _ _ _ _ _ _ h := h
  sealBatch _ _ _ _ _ _ _ _ _ _ h := h
  setGeometry _ _ _ _ _ _ _ _ h := h
  defineDevice _ _ _ _ _ _ h := h
  busSpeed _ _ _ h := h
  fetch _ k _ h := events_set h (fetch_withinRules _ _ (h k))
  subscribe _ k _ _ hok h := events_set h (subscribe_withinRules hok (h k))
  detachEvents _ _ h := events_set h (detach_withinRules _)

theorem reset_events : EventQueuesWithinRules State.reset := by
  intro k
  have hq : State.reset.eventQueue k = EventQueue.reset := Vector.getElem_replicate ..
  rw [hq]
  exact ⟨Nat.zero_le _, Nat.zero_le _, nofun, fun _ => ⟨rfl, rfl⟩⟩

theorem events_kept : KeptByEveryStep EventQueuesWithinRules :=
  kept_of_pieces events_pieces events_requests
    { now := fun _ _ _ _ _ _ _ _ _ _ _ _ h => h, probe := fun _ _ _ _ _ _ _ _ _ _ _ h => h }
    reset_events

/-! ### The Claim Table (R20) -/

/-- R28: a lease setting with a counter no higher. -/
def LeaseOk (l : Lease) : Prop :=
  (l.setting = 0 ∨ 8 ≤ l.setting ∧ l.setting ≤ 255) ∧ l.counter ≤ l.setting

theorem defined_of_frame {s t : State} (h : frameOf t = frameOf s) (i : SlotNo) :
    (t.slot i).defined = (s.slot i).defined := congrArg (fun F : Frame => (F.slot i).defined) h

theorem claims_same {s t : State} (h : ClaimTableWithinRules s) (hf : frameOf t = frameOf s)
    (hc : t.claims = s.claims) : ClaimTableWithinRules t := by
  refine ⟨fun i hi => ?_, fun k => ?_⟩
  · rw [defined_of_frame hf]
    unfold State.owner at hi
    rw [hc] at hi
    exact h.1 i hi
  · unfold State.lease
    rw [hc]
    exact h.2 k

theorem claims_move {s : State} {c : ClaimTable} (h : ClaimTableWithinRules s)
    (hc : ClaimMove s.claims c) : ClaimTableWithinRules { s with claims := c } := by
  refine ⟨fun i hi => ?_, fun k => ?_⟩
  · change c.owner[i.val].isSome = true at hi
    rcases hc.owner i with e | e
    · rw [e] at hi; cases hi
    · rw [e] at hi; exact h.1 i hi
  · change LeaseOk c.lease[k.val]
    rcases hc.lease k with e | ⟨es, ec⟩
    · rw [e]; exact ⟨.inl rfl, Nat.le_refl 0⟩
    · obtain ⟨hs, hle⟩ := h.2 k
      refine ⟨?_, ?_⟩
      · rw [es]; exact hs
      · rw [es]; exact ec.trans hle

theorem claims_pieces (F : Frame) : PieceLaw F (fun _ => True) (fun _ => True)
    (fun s => frameOf s = F ∧ ClaimTableWithinRules s) where
  host _ _ h := h
  phase _ _ h := h
  pending _ _ h := h
  draws _ _ h := h
  lease s k h := ⟨h.1, h.2.1, forall_setLease (p := LeaseOk) h.2.2 ⟨(h.2.2 k).1, Nat.le_refl _⟩⟩
  offer _ _ h := h
  batch _ _ _ _ _ h := h
  sealList _ _ h := h
  unstore _ _ h := h
  frame _ h := h.1
  good _ _ _ _ := trivial
  goodSlot _ _ _ _ := trivial
  gen _ _ _ h := h
  primes _ _ h := h
  outputs _ _ h := h
  marks _ h := h
  probes _ _ _ h := h
  queue _ _ _ _ h := h
  write _ _ _ _ _ _ _ _ _ h := h
  prime _ _ _ _ _ _ _ _ h := h
  recordState _ _ _ h := h
  applyLocal _ _ _ _ h := ⟨(frameOf_applyLocal _ _).trans h.1,
    claims_same h.2 (frameOf_applyLocal _ _) rfl⟩
  complete s b e rest done _ h := ⟨(frameOf_completeSlot ..).trans h.1,
    claims_same h.2 (frameOf_completeSlot e done (s.setQueue b rest)) (completeSlot_claims ..)⟩
  engine _ _ _ _ h := h
  claims _ _ hc h := ⟨h.1, claims_move h.2 hc⟩
  dropOpen _ _ _ _ h := h

theorem claims_requests : RequestLaw ClaimTableWithinRules where
  defineSlot _ _ _ _ _ _ _ _ _ _ _ _ _ _ _ _ h := by
    refine ⟨fun j hj => ?_, h.2⟩
    rw [State.setSlot_slot]
    split
    · rfl
    · exact h.1 j hj
  undefineSlot s i _ _ _ _ h := by
    refine ⟨fun j hj => ?_, h.2⟩
    rw [State.setOwner_owner] at hj
    change ((s.setSlot i Slot.undefined).slot j).defined = true
    rw [State.setSlot_slot]
    split
    · rename_i hij; rw [if_pos hij] at hj; cases hj
    · rename_i hij; rw [if_neg hij] at hj; exact h.1 j hj
  claim _ o ho h := by
    refine ⟨fun i hi => ?_, h.2⟩
    change o[i.val].isSome = true at hi
    rcases ho i with e | e
    · rw [e] at hi; exact h.1 i hi
    · exact e
  token _ _ h := h
  setLease _ _ _ hn h := by
    refine ⟨h.1, forall_setLease (p := LeaseOk) h.2 ⟨?_, Nat.le_refl _⟩⟩
    simpa [settingOk] using hn
  openBatch _ _ _ _ _ _ _ _ _ _ h := h
  restaged _ _ _ _ _ _ h := h
  sealBatch _ _ _ _ _ _ _ _ _ _ h := h
  setGeometry _ _ _ _ _ _ _ _ h := h
  defineDevice _ _ _ _ _ _ h := h
  busSpeed _ _ _ h := h
  fetch _ _ _ h := h
  subscribe _ _ _ _ _ h := h
  detachEvents _ _ h := h

theorem reset_claims : ClaimTableWithinRules State.reset := by
  refine ⟨fun i hi => ?_, fun k => ?_⟩
  · have ho : State.reset.owner i = none := Vector.getElem_replicate ..
    rw [ho] at hi
    cases hi
  · have hl : State.reset.lease k = { setting := 0, counter := 0 } := Vector.getElem_replicate ..
    rw [hl]
    exact ⟨.inl rfl, Nat.le_refl 0⟩

theorem claims_kept : KeptByEveryStep ClaimTableWithinRules :=
  kept_of_pieces claims_pieces claims_requests
    { now := fun _ _ _ _ _ _ _ _ _ _ _ _ h => h, probe := fun _ _ _ _ _ _ _ _ _ _ _ h => h }
    reset_claims

end Sys2Proof.TableLaws
end


section
/-! PROOFS. The ports' own law: what a message's end, a grant and the end of a service leave, and that
no other command reaches the ports. -/

set_option Elab.async false

namespace Sys2Proof.PortLaw

open Sys2Proof Sys2Proof.Machine Sys2Proof.Commands Sys2Proof.Rules Sys2Proof.Effects
open Sys2Proof.Schedule Sys2Proof.Leases Sys2Proof.Pieces

/-! ### What no event of the tables reaches -/

/-- The ports and the claims are what they were. -/
abbrev SameHost (s t : State) : Prop := t.host = s.host ∧ t.claims = s.claims

theorem SameHost.refl (s : State) : SameHost s s := ⟨rfl, rfl⟩

theorem SameHost.trans {s t u : State} (h : SameHost s t) (g : SameHost t u) : SameHost s u :=
  ⟨g.1.trans h.1, g.2.trans h.2⟩

theorem sameHost_settleWindow (s : State) : SameHost s (settleWindow s) :=
  ⟨settleWindow_host s, settleWindow_claims s⟩

theorem sameHost_retryOrFail (b : BusNo) (t : Transfer) (dataLow : Bool) (w : Work) :
    SameHost w.st (retryOrFail b t dataLow w).st :=
  ⟨retryOrFail_host b t dataLow w, retryOrFail_claims b t dataLow w⟩

theorem sameHost_enterFault (b : BusNo) (w : Work) : SameHost w.st (enterFault b w).st :=
  ⟨enterFault_host b w, enterFault_claims b w⟩

theorem sameHost_startEpochNow (c : Epoch) (w : Work) : SameHost w.st (startEpochNow c w).st :=
  ⟨startEpochNow_host c w, startEpochNow_claims c w⟩

theorem sameHost_advanceLine (s : State) : SameHost s (advanceLine s) :=
  have h := sameHost_settleWindow s
  ite_keeps (P := SameHost s) (fun _ => h) (.refl s)

theorem sameHost_endEpoch (s : State) : SameHost s (endEpoch s).st := by
  refine (sameHost_settleWindow s).trans ?_
  unfold endEpoch
  dsimp only
  generalize settleWindow s = u
  split
  · split
    · exact sameHost_startEpochNow _ (begin u)
    · split
      · have h := sameHost_startEpochNow (u.gen.c + 1)
          (begin (u.setGen { u.gen with latch := false }))
        exact h
      · exact ⟨waitForTrigger_host u, waitForTrigger_claims u⟩
  · unfold completeStop
    rw [Work.update_st, reportSchedule_st]
    exact ⟨enterStopped_host u, enterStopped_claims u⟩
  all_goals exact .refl u

theorem sameHost_takeTrigger (s : State) : SameHost s (takeTrigger s).st := by
  unfold takeTrigger
  split
  · exact sameHost_startEpochNow _ (begin s)
  · split
    · rw [offerWhere_st]; exact ⟨rfl, rfl⟩
    · exact ⟨rfl, rfl⟩
  · exact .refl s

theorem sameHost_startTransfer (b : BusNo) (dataLow : Bool) (s : State) :
    SameHost s (startTransfer b dataLow s) := by
  unfold startTransfer
  split
  · exact .refl s
  · exact ⟨noteAttempts_host .., noteAttempts_claims ..⟩

theorem sameHost_exceedStretch (b : BusNo) (passed : Nat) (s : State) :
    SameHost s (exceedStretch b passed s).st := by
  unfold exceedStretch
  split
  · exact ⟨noteAttempts_host .., noteAttempts_claims ..⟩
  · have h := sameHost_enterFault b (begin (s.setEngine b { s.engine b with
      pulses := pulsesFor passed,
      sent := (s.engine b).sent ++ pulseItems (pulsesFor passed) }))
    exact h
  · exact .refl s

theorem sameHost_endRecovery (b : BusNo) (lowLooks : Nat) (freed dataLow : Bool) (s : State) :
    SameHost s (endRecovery b lowLooks freed dataLow s).st := by
  unfold endRecovery
  dsimp only
  generalize hu : s.setEngine b _ = u
  have hsu : SameHost s u := by rw [← hu]; exact ⟨rfl, rfl⟩
  refine hsu.trans ?_
  split
  · split
    · exact sameHost_retryOrFail b _ dataLow (begin u)
    · unfold recovered
      dsimp only
      rw [Work.update_st, reportBus_st]
      exact ⟨rfl, rfl⟩
  · exact sameHost_enterFault b (begin u)

/-- No event of the tables but the tick and a lapse reaches the ports or the claims. -/
theorem sameHost_event {i : Instr} {s t : State} (h : exec i s = .next t)
    (htable : isTableEvent i = true) (htick : ∀ h0 h1, i ≠ .housekeepingTick h0 h1)
    (hlapse : ∀ k, i ≠ .leaseLapse k) : SameHost s t := by
  refine exec_tableEvent_keeps (P := SameHost s) htable (fun _ _ hs => hs) ?_ (.refl s) h
  cases i with
  | housekeepingTick h0 h1 => exact absurd rfl (htick h0 h1)
  | leaseLapse k => exact absurd rfl (hlapse k)
  | lineAdvance => exact fun u hu => hu.trans (sameHost_advanceLine u)
  | windowOpen => exact fun _ _ hu => hu
  | windowClose => exact fun _ _ hu => hu
  | epochEnd => exact fun u _ hu => hu.trans (sameHost_endEpoch u)
  | trigger => exact fun u hu => hu.trans (sameHost_takeTrigger u)
  | transferStart b dataLow => exact fun u _ hu => hu.trans (sameHost_startTransfer b dataLow u)
  | attemptNack b nack =>
    exact fun u t _ hu => hu.trans
      (sameHost_retryOrFail b _ _ (begin (putOnWires b (nackedWire nack.byte t.wire) u)))
  | transferEnd b =>
    exact fun u t _ hu => hu.trans (And.intro (endTransfer_host ..) (endTransfer_claims ..))
  | stretchLimitExceeded stretch => exact fun u _ hu => hu.trans (sameHost_exceedStretch _ _ u)
  | recoveryEnd => exact fun u _ hu => hu.trans (sameHost_endRecovery _ _ _ _ u)
  | stretchEnd => exact fun _ hu => hu
  | _ => cases htable

theorem host_event {i : Instr} {s t : State} (h : exec i s = .next t)
    (htable : isTableEvent i = true) : t.host = s.host := by
  refine exec_tableEvent_keeps (P := fun u => u.host = s.host) htable (fun _ _ hs => hs) ?_ rfl h
  cases i with
  | housekeepingTick h0 h1 => exact fun u hu => (congrArg State.host (tick_frame h0 h1 u)).trans hu
  | leaseLapse k =>
    exact fun u hu => (congrArg State.host (tickLease_frame (begin u) k)).trans hu
  | lineAdvance => exact fun u hu => (sameHost_advanceLine u).1.trans hu
  | windowOpen => exact fun _ _ hu => hu
  | windowClose => exact fun _ _ hu => hu
  | epochEnd => exact fun u _ hu => (sameHost_endEpoch u).1.trans hu
  | trigger => exact fun u hu => (sameHost_takeTrigger u).1.trans hu
  | transferStart b dataLow => exact fun u _ hu => (sameHost_startTransfer b dataLow u).1.trans hu
  | attemptNack b nack => exact fun u t _ hu => (retryOrFail_host ..).trans hu
  | transferEnd b => exact fun u t _ hu => (endTransfer_host ..).trans hu
  | stretchLimitExceeded stretch => exact fun u _ hu => (sameHost_exceedStretch _ _ u).1.trans hu
  | recoveryEnd => exact fun u _ hu => (sameHost_endRecovery _ _ _ _ u).1.trans hu
  | stretchEnd => exact fun _ hu => hu
  | _ => cases htable

/-! ### What no request's rule reaches -/

theorem sameHost_startPrimed (k : Client) (s : State) (m : Mode) (epoch : Epoch) :
    SameHost s ((dropStale epoch (begin (startRequested k s m epoch))).update beginPriming).st := by
  have hbegin : ∀ u : State, SameHost u (beginPriming u) := fun u =>
    ⟨placePrimes_host _, placePrimes_claims _⟩
  have hdrop : SameHost s (dropStale epoch (begin (startRequested k s m epoch))).st :=
    ⟨dropStale_host .., dropStale_claims ..⟩
  exact hdrop.trans (hbegin _)

theorem sameHost_stopSchedule (k : Client) (o : StopOption) (s : State) :
    SameHost s (stopSchedule k o s) := by
  unfold stopSchedule
  split
  · exact .refl s
  · exact .refl s
  · exact ⟨(enterStopped_host _).trans (abandonPrimes_host s),
      (enterStopped_claims _).trans (abandonPrimes_claims s)⟩
  · exact ⟨enterStopped_host s, enterStopped_claims s⟩

theorem sameHost_resetSchedule (s : State) : SameHost s (resetBatchesAndStore
    (begin (resetQueueEntries (setIssuer none (enterStopped s))).draw)).st := by
  constructor
  · rw [resetBatchesAndStore_host, begin_st, State.draw_host, resetQueueEntries_host,
      setIssuer_host, enterStopped_host]
  · rw [resetBatchesAndStore_claims, begin_st, State.draw_claims, resetQueueEntries_claims,
      setIssuer_claims, enterStopped_claims]

theorem detachClient_host (k : Client) (s : State) : (detachClient k s).host = s.host := by
  have hb : (detachBatch k (detachClaims k s)).host = s.host := by
    rw [detachClaims_frame]
    unfold detachBatch
    split <;> rfl
  rw [detachClient_eq, State.setEventQueue_host, detachTables, detachQueue_host, detachQueue_host,
    hb]

theorem host_effect {i : Instr} {s t : State} (e : Effect s i t) : t.host = s.host := by
  cases e with
  | writeNow => exact (append_host ..).trans (supersede_host ..)
  | start _ _ hw => rw [hw]; exact (sameHost_startPrimed ..).1
  | startAtOnce _ _ hw => rw [endPriming_host, hw]; exact (sameHost_startPrimed ..).1
  | stop => exact (sameHost_stopSchedule ..).1
  | resetSchedule => exact (sameHost_resetSchedule s).1
  | readDevice => exact append_host ..
  | detach => exact detachClient_host ..
  | _ => rfl

/-! ### The length of an answer (R153) -/

/-- An answer whose response fits into the response buffer. -/
def Short (r : Work × Reply) : Prop := r.2.payload.length ≤ 29

theorem short_refuse {s : State} {status : Status} {payload : List Byte}
    (h : payload.length ≤ 29) : Short (refuse s status payload) := h

theorem short_answer {w : Work} {status : Status} {payload : List Byte}
    (h : payload.length ≤ 29) : Short (answer w status payload) := h

theorem short_refusal (s : State) (status : Status) : Short (refuse s status) := Nat.zero_le _

theorem short_done (w : Work) (status : Status) : Short (answer w status) := Nat.zero_le _

theorem short_withToken {k : Client} {body : Service} {s : State} (h : Short (body s)) :
    Short (withToken k body s) := by
  unfold withToken
  split
  · exact h
  · exact short_refusal ..

theorem recordBytes_length (r : EventRecord) : (recordBytes r).length = 12 := by
  have hpad : (padTo 8 r.event.fields).length = 8 := by
    unfold padTo
    rw [List.length_append, List.length_take, List.length_replicate]
    omega
  unfold recordBytes
  rw [List.length_append, List.length_append, hpad]
  rfl

theorem flatMap_length {α : Type} {l : List α} {f : α → List Byte} {n : Nat}
    (h : ∀ x, (f x).length = n) : (l.flatMap f).length = l.length * n := by
  rw [List.length_flatMap]
  induction l with
  | nil => simp
  | cons x l ih => rw [List.map_cons, List.sum_cons, ih, h, List.length_cons]; ring

theorem short_fetch (k : Client) (count : Byte) (s : State) : Short (serveFetch k count s) := by
  unfold serveFetch
  split
  · exact short_refusal ..
  · rename_i hcount
    refine short_answer ?_
    rw [List.length_append, flatMap_length recordBytes_length, List.length_take]
    have hle : count.toNat ≤ 2 := by
      rw [not_and_or, not_not, not_not] at hcount
      rcases hcount with rfl | rfl <;> decide
    have := Nat.min_le_left count.toNat (s.eventQueue k).records.length
    simp only [List.length_cons, List.length_nil]
    omega

theorem short_readBus (bus : Byte) (s : State) : Short (serveReadBus bus s) := by
  unfold serveReadBus
  split
  · exact short_refusal ..
  · rename_i b _
    refine short_answer ?_
    rw [List.length_append, flatMap_length (n := 3) (fun _ => rfl)]
    have hle : (s.presentOn b).length ≤ 8 := List.length_filter_le ..
    simp only [List.length_cons, List.length_nil]
    omega

theorem short_readQueue (bus : Byte) (s : State) : Short (serveReadQueue bus s) := by
  unfold serveReadQueue
  split
  · exact short_refusal ..
  · dsimp only
    split <;> exact short_answer (by simp [emptyHeadBytes, headBytes])

theorem short_ite {c : Prop} [Decidable c] {a b : Work × Reply} (ha : Short a) (hb : Short b) :
    Short (if c then a else b) := by
  split
  · exact ha
  · exact hb

theorem short_writeNow (k : Client) (tag slot : Byte) (value : Value) (s : State) :
    Short (serveWriteNow k tag slot value s) := by
  unfold serveWriteNow
  refine short_ite (short_refusal ..) (short_ite (short_refusal ..) (short_ite (short_refusal ..)
    (short_ite (short_refusal ..) (short_ite (short_refusal ..) ?_))))
  split
  · exact short_refusal ..
  · exact short_ite (short_refusal ..) (short_done ..)

theorem short_claim (k : Client) (first count : Byte) (s : State) :
    Short (serveClaim k first count s) := by
  unfold serveClaim
  refine short_ite (short_refusal ..) ?_
  split
  · exact short_refuse (by simp)
  · split
    · exact short_refuse (by simp)
    · exact short_answer (by simp)

theorem short_open (k : Client) (target policy : Byte) (epoch : Half) (s : State) :
    Short (serveOpen k target policy epoch s) := by
  unfold serveOpen
  split
  · exact short_refuse (by simp)
  · split
    · exact short_refusal ..
    · split
      · exact short_answer (by simp)
      · exact short_refusal ..

theorem short_stage (k : Client) (slot : Byte) (value : Value) (s : State) :
    Short (serveStage k slot value s) := by
  unfold serveStage
  split
  · exact short_refusal ..
  · dsimp only
    split
    · exact short_refusal ..
    all_goals exact short_answer (by simp [valueBytes])

theorem short_seal (k : Client) (s : State) : Short (serveSeal k s) := by
  unfold serveSeal
  split
  · exact short_refusal ..
  · refine short_ite (short_refusal ..) ?_
    split
    · exact short_refuse (by simp)
    · split
      · exact short_refuse (by simp)
      · split
        · exact short_refuse (by simp [halfBytes])
        · exact short_refuse (by simp [halfBytes])
        · split
          · exact short_refuse (by simp)
          · exact short_ite (short_refuse (by simp)) (short_answer (by simp [halfBytes]))

theorem short_defineDevice (device state bus address size retries : Byte) (s : State) :
    Short (serveDefineDevice device state bus address size retries s) := by
  unfold serveDefineDevice
  refine short_ite (short_refusal ..) ?_
  split
  · exact short_ite (short_refusal ..) (short_ite (short_refusal ..) (short_done ..))
  · exact short_refusal ..

theorem short_readDevice (k : Client) (tag device : Byte) (register : Half) (width order : Byte)
    (s : State) : Short (serveReadDevice k tag device register width order s) := by
  unfold serveReadDevice
  split
  · exact short_ite (short_refusal ..) (short_ite (short_refusal ..) (short_ite (short_refusal ..)
      (short_ite (short_refusal ..) (short_done ..))))
  · exact short_refusal ..

theorem short_defineSlot (k : Client) (slot device : Byte) (register : Half) (format kind : Byte)
    (min max initial : Value) (s : State) :
    Short (serveDefineSlot k slot device register format kind min max initial s) := by
  unfold serveDefineSlot
  refine short_ite (short_refusal ..) (short_ite (short_refusal ..)
    (short_ite (short_refuse (by simp)) (short_ite (short_refusal ..) ?_)))
  split
  · exact short_refusal ..
  · exact short_ite (short_refusal ..) (short_ite (short_refusal ..) (short_done ..))

theorem short_undefineSlot (k : Client) (slot : Byte) (s : State) :
    Short (serveUndefineSlot k slot s) := by
  unfold serveUndefineSlot
  exact short_ite (short_refusal ..) (short_ite (short_refusal ..) (short_ite (short_refusal ..)
    (short_ite (short_refuse (by simp)) (short_ite (short_refusal ..) (short_done ..)))))

theorem short_setGeometry (lspan vspan wopen wclose : Half) (edge : Byte) (s : State) :
    Short (serveSetGeometry lspan vspan wopen wclose edge s) := by
  unfold serveSetGeometry
  refine short_ite (short_refusal ..) ?_
  split
  · exact short_refusal ..
  · exact short_ite (short_refusal ..) (short_done ..)

/-- R153, R175: every answer fits into the response buffer. -/
theorem short_ruleOf (i : Instr) (s : State) : Short (ruleOf i s) := by
  cases i with
  | defineSlot => exact short_withToken (short_defineSlot ..)
  | undefineSlot => exact short_withToken (short_undefineSlot ..)
  | readSlot => exact short_answer (by simp [slotPayload, halfBytes, valueBytes])
  | writeNow => exact short_writeNow ..
  | claim => exact short_claim ..
  | release => exact short_ite (short_refusal ..) (short_answer (by simp))
  | claimSchedule =>
    unfold ruleOf serveClaimSchedule
    dsimp only
    split
    · exact short_done ..
    · exact short_ite (short_done ..) (short_refuse (by simp))
  | releaseSchedule => exact short_ite (short_done ..) (short_refusal ..)
  | revoke =>
    refine short_withToken ?_
    unfold serveRevoke
    split
    · exact short_refusal ..
    · exact short_ite (short_refusal ..) (short_answer (by simp [countBytes, halfBytes]))
  | setLease => exact short_ite (short_refusal ..) (short_answer (by simp [countBytes, halfBytes]))
  | openBatch => exact short_open ..
  | stage => exact short_stage ..
  | stageRun =>
    refine short_ite (short_refusal ..) ?_
    split
    · exact short_refusal ..
    · exact short_answer (by simp)
  | unstage =>
    unfold ruleOf serveUnstage
    dsimp only
    split
    · exact short_refusal ..
    · split
      · exact short_refusal ..
      · exact short_answer (by simp [valueBytes])
  | abort =>
    unfold ruleOf serveAbort
    dsimp only
    split
    · exact short_refusal ..
    · exact short_answer (by simp)
  | sealBatch => exact short_seal ..
  | cancel =>
    unfold ruleOf serveCancel
    dsimp only
    split
    · exact short_refusal ..
    · exact short_ite (short_refusal ..) (short_answer (by simp))
  | readBatch =>
    unfold ruleOf serveReadBatch
    dsimp only
    split
    · exact short_refusal ..
    · exact short_answer (by simp [batchPayload, halfBytes])
  | setGeometry => exact short_withToken (short_setGeometry ..)
  | start =>
    refine short_withToken (short_ite (short_refusal ..) ?_)
    split
    · exact short_refusal ..
    · exact short_done ..
  | stop =>
    refine short_withToken (short_ite (short_refusal ..) ?_)
    split
    · exact short_refusal ..
    · exact short_done ..
  | resetSchedule => exact short_withToken (short_done ..)
  | readSchedule => exact short_answer (by simp [schedulePayload, halfBytes, countBytes])
  | readOutputs => exact short_answer (by simp [countBytes, halfBytes])
  | readDevice => exact short_readDevice ..
  | readQueue => exact short_readQueue ..
  | defineDevice => exact short_withToken (short_defineDevice ..)
  | busConfig =>
    refine short_withToken (short_ite (short_refusal ..) ?_)
    split
    · exact short_done ..
    · exact short_refusal ..
  | busRecover =>
    refine short_withToken ?_
    unfold serveBusRecover
    split
    · exact short_refusal ..
    · exact short_ite (short_refusal ..) (short_done ..)
  | readBus => exact short_readBus ..
  | fetch => exact short_fetch ..
  | subscribe => exact short_ite (short_refusal ..) (short_answer (by simp))
  | detach => exact short_done ..
  | _ => exact short_refusal ..

/-! ### The law of the ports (R153, R154) -/

/-- R153, R154: what one port may hold. -/
def PortOk (p : Port) : Prop :=
  (p.state = .working ↔ p.request.isSome = true) ∧ (p.lock = .undetermined → p.state = .ready) ∧
    (∀ bytes, p.request = some bytes → 2 ≤ bytes.length ∧ bytes.length ≤ 36) ∧
    3 ≤ p.response.length ∧ p.response.length ≤ 32

theorem ports_same {s t : State} (h : PortsWithinRules s) (hh : t.host = s.host) :
    PortsWithinRules t := by
  unfold PortsWithinRules State.port
  rw [hh]
  exact h

theorem ports_setPort {s : State} {k : Client} {p : Port} (h : PortsWithinRules s) (hp : PortOk p)
    (hserved : s.host.inService = some k → p.state = .working) :
    PortsWithinRules (s.setPort k p) := by
  refine ⟨fun j => ?_, fun j hj => ?_⟩
  · rw [State.setPort_port]
    split
    · exact hp
    · exact h.1 j
  · rw [State.setPort_port]
    split
    · rename_i hkj; exact hserved (hkj ▸ hj)
    · exact h.2 j hj

/-- A port that keeps its lock, its state, its request and its response. -/
theorem ports_setPort_like {s : State} {k : Client} {p : Port} (h : PortsWithinRules s)
    (hlock : p.lock = .undetermined → (s.port k).lock = .undetermined)
    (hstate : p.state = (s.port k).state) (hrequest : p.request = (s.port k).request)
    (hresponse : p.response = (s.port k).response) : PortsWithinRules (s.setPort k p) := by
  obtain ⟨hwork, hready, hbytes, hlen⟩ := h.1 k
  refine ports_setPort h ⟨?_, fun hu => ?_, ?_, ?_⟩ fun hk => ?_
  · rw [hstate, hrequest]; exact hwork
  · rw [hstate]; exact hready (hlock hu)
  · rw [hrequest]; exact hbytes
  · rw [hresponse]; exact hlen
  · rw [hstate]; exact h.2 k hk

theorem ports_grantNext {s : State} (h : PortsWithinRules s) : PortsWithinRules (grantNext s) := by
  rcases grantNext_cases s with e | ⟨k, -, hwait, e⟩
  · rwa [e]
  · rw [e]
    refine ⟨h.1, fun j hj => ?_⟩
    obtain rfl : k = j := Option.some.inj hj
    exact eq_of_beq (Bool.and_eq_true_iff.mp hwait).1

theorem lengthRule_fixed {code : Byte} {n : Nat} (h : lengthRule code = some (.fixed n)) :
    2 ≤ n ∧ n ≤ 36 := by
  unfold lengthRule at h
  split at h
  all_goals cases h
  all_goals decide

/-- R174: a message that parses fits into the request buffer. -/
theorem length_of_parses {bytes : List Byte} (h : parseRefusal bytes = none) :
    2 ≤ bytes.length ∧ bytes.length ≤ 36 := by
  unfold parseRefusal at h
  split at h
  · cases h
  · split at h
    · cases h
    · rename_i code rest rule hrule
      split at h
      · cases h
      · split at h
        · split at h
          · rename_i hlen; rw [hlen]; exact lengthRule_fixed hrule
          · cases h
        · split at h
          · rename_i hrun
            simp only [runLengthOk, Bool.and_eq_true, decide_eq_true_eq] at hrun
            omega
          · cases h

theorem ports_endMessage {k : Client} {bytes : List Byte} {taken later : Bool} {s : State}
    (h : PortsWithinRules s) (hlock : (s.port k).lock ≠ .undetermined) :
    PortsWithinRules (endMessage k bytes taken later s) := by
  have hreload : PortsWithinRules (reloadLease k s) := ports_same h rfl
  rcases endMessage_cases k bytes taken later s with
    ⟨-, e⟩ | ⟨-, hready, ⟨-, e⟩ | ⟨-, e⟩ | ⟨hparse, t, rfl, e⟩⟩ <;> rw [e]
  · exact hreload
  all_goals
    obtain ⟨hwork, hundetermined, hbytes, -⟩ := h.1 k
    have hidle : (reloadLease k s).host.inService ≠ some k := fun hk => by
      have := h.2 k hk
      rw [hready] at this
      cases this
  · exact ports_setPort hreload ⟨hwork, hundetermined, hbytes, by simp [responseBytes], by simp [responseBytes]⟩
      fun hk => absurd hk hidle
  · exact ports_setPort hreload ⟨hwork, hundetermined, hbytes, by simp [responseBytes], by simp [responseBytes]⟩
      fun hk => absurd hk hidle
  · have htaken : PortsWithinRules ((reloadLease k s).setPort k { s.port k with
        state := .working, request := some bytes,
        response :=
          responseBytes { status := .working } (bytes.getD 1 0) (bytes.getD 0 0) }) := by
      refine ports_setPort hreload ⟨⟨fun _ => rfl, fun _ => rfl⟩, fun hu => absurd hu hlock,
        fun l hl => ?_, by simp [responseBytes], by simp [responseBytes]⟩ fun _ => rfl
      obtain rfl : bytes = l := Option.some.inj hl
      exact length_of_parses hparse
    split
    · exact htaken
    · exact ports_grantNext htaken

theorem ports_messageEnds {k : Client} {via : Carrier} {bytes : List Byte} {later : Bool}
    {s : State} (h : PortsWithinRules s) : PortsWithinRules (messageEnds k via bytes later s) := by
  have hended : PortsWithinRules (s.setPort k ((s.port k).endTransaction via bytes.length)) := by
    cases via with
    | twoWire => exact ports_setPort_like h id rfl rfl rfl
    | fourWire => exact ports_setPort_like h id rfl rfl rfl
  have hlock : (s.port k).hears via = true →
      ((s.setPort k ((s.port k).endTransaction via bytes.length)).port k).lock ≠ .undetermined := by
    intro hhears hu
    rw [State.setPort_port, if_pos rfl] at hu
    cases via with
    | twoWire =>
      have hu' : (s.port k).lock = .undetermined := hu
      simp [Port.hears, hu'] at hhears
    | fourWire =>
      have hu' : (s.port k).lock = .undetermined := hu
      simp [Port.hears, hu'] at hhears
  unfold messageEnds
  dsimp only
  split
  · exact h
  · rename_i hhears
    have hheard : (s.port k).hears via = true := by simpa using hhears
    split
    · exact hended
    · split
      · exact ports_same hended rfl
      · exact ports_endMessage hended (hlock hheard)
    · exact ports_endMessage hended (hlock hheard)

theorem ports_endService {k : Client} {tag code : Byte} {reply : Reply} {s : State}
    (h : PortsWithinRules s) (hshort : reply.payload.length ≤ 29) :
    PortsWithinRules (endService k tag code reply s) := by
  have hport : PortOk { s.port k with
      state := .ready, request := none, response := responseBytes reply tag code } := by
    refine ⟨⟨nofun, nofun⟩, fun _ => rfl, nofun, ?_⟩
    simp only [responseBytes, List.length_append, List.length_cons, List.length_nil]
    omega
  refine ports_grantNext ⟨fun j => ?_, nofun⟩
  change PortOk ((s.setPort k _).port j)
  rw [State.setPort_port]
  split
  · exact hport
  · exact h.1 j

/-- A request's service ends at the port in service with an answer that fits. -/
theorem ports_request {k : Client} {i : Instr} {s : State} (h : PortsWithinRules s) :
    PortsWithinRules (request k i (ruleOf i) s) := by
  have harrive : PortsWithinRules (arrive k i s) := by
    unfold arrive
    split
    · exact h
    · split
      · exact ports_grantNext h
      · split
        · exact h
        · exact ports_messageEnds h
  refine whenOperating_keeps h ?_
  dsimp only
  split
  · have hhost : (ruleOf i (arrive k i s)).1.finish.host = (arrive k i s).host :=
      (finish_host _).trans (host_effect (ruleOf_effect i (arrive k i s)))
    exact ports_endService (ports_same harrive hhost) (short_ruleOf i _)
  · exact harrive

theorem ports_sampleStrap {k : Client} {pins : PortPins} {s : State} (h : PortsWithinRules s) :
    PortsWithinRules (sampleStrap k pins s) := ports_setPort_like h id rfl rfl rfl

theorem detect_like (p : Port) (condition : FramingCondition) :
    ((p.detect condition).lock = .undetermined → p.lock = .undetermined) ∧
      (p.detect condition).state = p.state ∧ (p.detect condition).request = p.request ∧
      (p.detect condition).response = p.response := by
  unfold Port.detect
  split
  · exact ⟨id, rfl, rfl, rfl⟩
  · split
    · split
      · exact ⟨id, rfl, rfl, rfl⟩
      · exact ⟨nofun, rfl, rfl, rfl⟩
    · exact ⟨id, rfl, rfl, rfl⟩
    · exact ⟨nofun, rfl, rfl, rfl⟩
    · exact ⟨id, rfl, rfl, rfl⟩

theorem reset_ports : PortsWithinRules State.reset := by
  refine ⟨fun k => ?_, nofun⟩
  have hp : State.reset.port k = Port.reset := Vector.getElem_replicate ..
  rw [hp]
  exact ⟨⟨nofun, nofun⟩, fun _ => rfl, nofun, by decide, by decide⟩

theorem ports_exec {i : Instr} {s t : State} (hs : PortsWithinRules s) (h : exec i s = .next t) :
    PortsWithinRules t := by
  cases hk : requestClient i with
  | some k =>
    rw [exec_eq_request hk] at h
    cases h
    exact ports_request hs
  | none =>
    cases htable : isTableEvent i with
    | true => exact ports_same hs (host_event h htable)
    | false =>
      cases i with
      | pollNone k clocks =>
        cases h
        refine whenOperating_keeps hs (ite_keeps (fun _ => ?_) hs)
        have hread : PortsWithinRules (s.setPort k ((s.port k).endTransaction
            (.fourWire (Fin.ofNat 8 clocks)) (1 + clocks / 8))) :=
          ports_setPort_like hs id rfl rfl rfl
        exact ports_same hread rfl
      | messageTaken k arrival bytes =>
        cases h; exact whenOperating_keeps hs (ports_messageEnds hs)
      | messageRefused k via bytes =>
        cases h; exact whenOperating_keeps hs (ports_messageEnds hs)
      | readTransaction k address count =>
        cases h
        exact whenOperating_keeps hs (ite_keeps (fun _ => ports_setPort_like hs id rfl rfl rfl) hs)
      | framingDetection k condition =>
        cases h
        obtain ⟨h1, h2, h3, h4⟩ := detect_like (s.port k) condition
        exact whenOperating_keeps hs (ports_setPort_like hs h1 h2 h3 h4)
      | pinReset cause =>
        have hheld : ∀ u : State, PortsWithinRules (heldInReset u) := fun _ =>
          ports_same reset_ports rfl
        cases cause with
        | resetLow => cases h; exact hheld _
        | powerUp => cases h; exact hheld _
        | supplyFall => cases h; exact hheld _
        | shortPulse => cases h; exact ite_keeps (fun _ => hheld _) (ports_same hs rfl)
      | resetRelease => cases h; exact ite_keeps (fun _ => ports_same hs rfl) hs
      | startupEnd pins0 pins1 pins2 pins3 =>
        cases h
        exact ite_keeps (fun _ => ports_sampleStrap (ports_sampleStrap (ports_sampleStrap
          (ports_sampleStrap (ports_same hs rfl))))) hs
      | twoWireCodeByte k address =>
        cases h
        exact whenOperating_keeps hs (ite_keeps (fun _ => ports_setPort_like hs id rfl rfl rfl) hs)
      | fourWireFrameStart k =>
        cases h
        exact whenOperating_keeps hs (ite_keeps (fun _ => ports_setPort_like hs id rfl rfl rfl) hs)
      | housekeepingTick | leaseLapse | lineAdvance | windowOpen | windowClose | epochEnd | trigger
      | transferStart | attemptNack | transferEnd | stretchLimitExceeded | recoveryEnd | stretchEnd =>
        exact nomatch htable
      | _ => exact nomatch hk

theorem ports_kept : KeptByEveryStep PortsWithinRules :=
  keptByEveryStep_of_exec (fun _ _ hs => ports_same hs rfl) (fun _ _ _ => ports_exec)

/-- Settles O55: the law of the ports, and the law of the Claim Table by its pieces. -/
theorem everyStepKeepsPortsAndClaims : Obligations.EveryStepKeepsPortsAndClaims :=
  ⟨ports_kept, TableLaws.claims_kept⟩

end Sys2Proof.PortLaw
end


section
/-! PROOFS. The laws of what the tables hold (R4, R9, R67, R127): references to live slots and devices,
admissible values, the local slots. -/

set_option Elab.async false

namespace Sys2Proof.TableContents

open Sys2Proof Sys2Proof.Machine Sys2Proof.Commands Sys2Proof.Rules Sys2Proof.Effects
open Sys2Proof.Schedule Sys2Proof.Carrying Sys2Proof.Pieces Sys2Proof.PieceRequests
open Sys2Proof.TableLaws

/-! ### References (R67, R127, R129) -/

/-- The record of device `d`, by the frame. -/
def recordOf (F : Frame) (d : DeviceNo) : Device := F.device[d.val]

/-- R127, R129: what the descriptors and the device table hold. -/
def FrameOk (F : Frame) : Prop :=
  (∀ (i : SlotNo) (d : DeviceNo), (F.slot i).defined = true → (F.slot i).device = some d →
    (recordOf F d).isPresent = true ∧ registerFits (recordOf F d) (F.slot i).register = true) ∧
  ∀ d e : DeviceNo, (recordOf F d).isPresent = true → (recordOf F e).isPresent = true →
    (recordOf F d).bus = (recordOf F e).bus →
    (recordOf F d).address = (recordOf F e).address → d = e

/-- R127: an entry of bus `b` is for a PRESENT device of that bus, and for a DEFINED slot of it. -/
def EntryOk (F : Frame) (b : BusNo) (e : Entry) : Prop :=
  (recordOf F e.device).isPresent = true ∧ (recordOf F e.device).bus = b ∧
    ∀ i : SlotNo, e.slot = some i → (F.slot i).defined = true ∧ (F.slot i).device = some e.device

/-- R67, R127: what the store, the queues and the prime list refer to. -/
structure RefersWithin (F : Frame) (s : State) : Prop where
  store : ∀ x ∈ s.store, (F.slot x.slot).defined = true
  queue : ∀ b : BusNo, ∀ e ∈ s.queue b, EntryOk F b e
  primes : ∀ i ∈ s.gen.primeList, (F.slot i).defined = true
  noPrimes : s.gen.run ≠ .priming → s.gen.primeList = []

theorem nothingDangles_iff {s : State} :
    NothingDangles s ↔ FrameOk (frameOf s) ∧ RefersWithin (frameOf s) s := by
  constructor
  · rintro ⟨hslots, hstore, hqueue, hprimes, hnone, haddress⟩
    exact ⟨⟨hslots, haddress⟩, hstore, hqueue, hprimes, hnone⟩
  · rintro ⟨⟨hslots, haddress⟩, hstore, hqueue, hprimes, hnone⟩
    exact ⟨hslots, hstore, hqueue, hprimes, hnone, haddress⟩

theorem entryOk_same {F : Frame} {b : BusNo} {e e' : Entry} (h : EntryOk F b e)
    (he : SameEntry e e') : EntryOk F b e' := by
  unfold EntryOk
  rw [he.device, he.slot]
  exact h

/-- An entry for a DEFINED slot of a device on bus `b`. -/
theorem entryOk_slot {F : Frame} {b : BusNo} {e : Entry} {i : SlotNo} {d : DeviceNo}
    (hF : FrameOk F) (hi : (F.slot i).defined = true) (hd : (F.slot i).device = some d)
    (hb : (recordOf F d).bus = b) (hdevice : e.device = d) (hslot : e.slot = some i) :
    EntryOk F b e := by
  refine ⟨?_, ?_, fun j hj => ?_⟩
  · rw [hdevice]; exact (hF.1 i d hi hd).1
  · rw [hdevice]; exact hb
  · obtain rfl : i = j := Option.some.inj (hslot.symm.trans hj)
    exact ⟨hi, hdevice ▸ hd⟩

theorem refers_setQueue {F : Frame} {s : State} {b : BusNo} {q : List Entry}
    (h : RefersWithin F s) (hq : ∀ e ∈ q, EntryOk F b e) : RefersWithin F (s.setQueue b q) :=
  ⟨h.store, forall_setQueue (p := fun b q => ∀ e ∈ q, EntryOk F b e) h.queue hq, h.primes,
    h.noPrimes⟩

theorem refers_append {F : Frame} {s : State} {b : BusNo} {e : Entry} (h : RefersWithin F s)
    (he : EntryOk F b e) : RefersWithin F (s.setQueue b (s.queue b ++ [e])) := by
  refine refers_setQueue h fun x hx => ?_
  rcases List.mem_append.mp hx with hx | hx
  · exact h.queue b x hx
  · rw [List.mem_singleton.mp hx]; exact he

theorem refers_genMove {F : Frame} {s : State} {g : Generator} (h : RefersWithin F s)
    (hg : GenMove s.gen g) : RefersWithin F (s.setGen g) := by
  refine ⟨h.store, h.queue, fun i hi => h.primes i (hg.primes.subset hi), fun hrun => ?_⟩
  have hempty : s.gen.primeList = [] → g.primeList = [] := fun hnil =>
    List.sublist_nil.mp (hnil ▸ hg.primes)
  rcases hg.run with hp | hsame | hnil | hp
  · exact absurd hp hrun
  · exact hempty (h.noPrimes (hsame ▸ hrun))
  · exact hnil
  · exact hempty (h.noPrimes hp)

theorem refers_same {F : Frame} {s t : State} (h : RefersWithin F s)
    (hstore : ∀ x ∈ t.store, x ∈ s.store) (hq : t.queues = s.queues) (hg : t.gen = s.gen) :
    RefersWithin F t := by
  refine ⟨fun x hx => h.store x (hstore x hx), fun b e he => ?_, hg ▸ h.primes, hg ▸ h.noPrimes⟩
  unfold State.queue at he
  rw [hq] at he
  exact h.queue b e he

theorem primeSlots_defined {s : State} {i : SlotNo} (h : i ∈ s.primeSlots) :
    (s.slot i).defined = true := by
  have hp := (List.mem_filter.mp h).2
  simp only [Bool.and_eq_true] at hp
  exact hp.1.2

theorem refers_pieces (F : Frame) : PieceLaw F (fun x => (F.slot x.slot).defined = true)
    (fun i => (F.slot i).defined = true)
    (fun s => frameOf s = F ∧ FrameOk F ∧ RefersWithin F s) where
  host _ _ h := ⟨h.1, h.2.1, refers_same h.2.2 (fun _ => id) rfl rfl⟩
  phase _ _ h := ⟨h.1, h.2.1, refers_same h.2.2 (fun _ => id) rfl rfl⟩
  pending _ _ h := ⟨h.1, h.2.1, refers_same h.2.2 (fun _ => id) rfl rfl⟩
  draws _ _ h := ⟨h.1, h.2.1, refers_same h.2.2 (fun _ => id) rfl rfl⟩
  lease _ _ h := ⟨h.1, h.2.1, refers_same h.2.2 (fun _ => id) rfl rfl⟩
  offer _ _ h := ⟨h.1, h.2.1, refers_same h.2.2 (fun _ => id) rfl rfl⟩
  batch _ _ _ _ _ h := ⟨h.1, h.2.1, refers_same h.2.2 (fun _ => id) rfl rfl⟩
  sealList _ _ h := ⟨h.1, h.2.1, refers_same h.2.2 (fun _ => id) rfl rfl⟩
  unstore _ _ h := ⟨h.1, h.2.1, refers_same h.2.2 (fun _ => List.mem_of_mem_filter) rfl rfl⟩
  frame _ h := h.1
  good _ x h hx := h.2.2.store x hx
  goodSlot _ i h hi := h.2.2.primes i hi
  gen _ _ hg h := ⟨h.1, h.2.1, refers_genMove h.2.2 hg⟩
  primes s hrun h := by
    refine ⟨h.1, h.2.1, h.2.2.store, h.2.2.queue, fun i hi => ?_, fun hr => absurd hrun hr⟩
    rw [← h.1]
    exact primeSlots_defined hi
  outputs _ _ h := ⟨h.1, h.2.1, refers_same h.2.2 (fun _ => id) rfl rfl⟩
  marks _ h := ⟨h.1, h.2.1, refers_same h.2.2 (fun _ => id) rfl rfl⟩
  probes _ _ _ h := ⟨h.1, h.2.1, h.2.2.store, h.2.2.queue, h.2.2.primes, h.2.2.noPrimes⟩
  queue s b q hq h := by
    refine ⟨h.1, h.2.1, refers_setQueue h.2.2 fun e' he' => ?_⟩
    obtain ⟨e, he, hsame⟩ := hq.same e' he'
    exact entryOk_same (h.2.2.queue b e he) hsame
  write s b x d late hx hd hb _ h := by
    obtain ⟨rfl, hF, hr⟩ := h
    exact ⟨rfl, hF, refers_append hr (entryOk_slot hF hx hd hb rfl rfl)⟩
  prime s b i d hi hd hb _ h := by
    obtain ⟨rfl, hF, hr⟩ := h
    exact ⟨rfl, hF, refers_append hr (entryOk_slot hF hi hd hb rfl rfl)⟩
  recordState s x st h := by
    refine ⟨h.1, h.2.1, ?_, h.2.2.queue, h.2.2.primes, h.2.2.noPrimes⟩
    intro y hy
    obtain ⟨z, hz, rfl⟩ := List.mem_map.mp hy
    have hslot : (F.slot z.slot).defined = true := h.2.2.store z hz
    split <;> exact hslot
  applyLocal _ _ _ _ h := ⟨(frameOf_applyLocal _ _).trans h.1, h.2.1,
    refers_same h.2.2 (fun _ => id) rfl rfl⟩
  complete s b e rest done hq h := by
    refine ⟨(frameOf_completeSlot ..).trans h.1, h.2.1, ?_⟩
    have hrest : RefersWithin F (s.setQueue b rest) :=
      refers_setQueue h.2.2 fun e he => h.2.2.queue b e (hq ▸ List.mem_cons_of_mem _ he)
    refine refers_same hrest (fun x hx => ?_) (completeSlot_queues ..) (completeSlot_gen ..)
    rwa [completeSlot_store] at hx
  engine _ _ _ _ h := ⟨h.1, h.2.1, refers_same h.2.2 (fun _ => id) rfl rfl⟩
  claims _ _ _ h := ⟨h.1, h.2.1, refers_same h.2.2 (fun _ => id) rfl rfl⟩
  dropOpen _ _ _ _ h := ⟨h.1, h.2.1, refers_same h.2.2 (fun _ => id) rfl rfl⟩

theorem dangles_pieces (F : Frame) : PieceLaw F (fun x => (F.slot x.slot).defined = true)
    (fun i => (F.slot i).defined = true) (fun s => frameOf s = F ∧ NothingDangles s) := by
  have hsame : (fun s => frameOf s = F ∧ NothingDangles s) =
      fun s => frameOf s = F ∧ FrameOk F ∧ RefersWithin F s := by
    funext s
    refine propext (and_congr_right fun hF => ?_)
    rw [nothingDangles_iff, hF]
  rw [hsame]
  exact refers_pieces F

/-- A law of references holds of a state with the same descriptors, devices, store, queues and prime
list. -/
theorem dangles_same {s t : State} (h : NothingDangles s) (hf : frameOf t = frameOf s)
    (hstore : ∀ x ∈ t.store, (s.slot x.slot).defined = true) (hq : t.queues = s.queues)
    (hg : t.gen.primeList = s.gen.primeList ∧ t.gen.run = s.gen.run) : NothingDangles t := by
  obtain ⟨hF, hr⟩ := nothingDangles_iff.mp h
  rw [nothingDangles_iff, hf]
  refine ⟨hF, hstore, fun b e he => ?_, ?_, ?_⟩
  · unfold State.queue at he
    rw [hq] at he
    exact hr.queue b e he
  · rw [hg.1]; exact hr.primes
  · rw [hg.1, hg.2]; exact hr.noPrimes

theorem not_queued {s : State} {i : SlotNo} (hq : s.queuedCount i = 0) (b : BusNo) (e : Entry)
    (he : e ∈ s.queue b) : e.slot ≠ some i := by
  obtain ⟨h0, h1⟩ := Nat.add_eq_zero_iff.mp hq
  have hzero : (s.queue b).countP (fun e => e.slot == some i) = 0 := by
    rcases ScheduleEvents.bus_cases b with rfl | rfl
    · exact h0
    · exact h1
  exact fun hi => List.countP_eq_zero.mp hzero e he (by simp [hi])

/-- A slot's descriptor is written while nothing refers to the slot. -/
theorem dangles_setSlot {s : State} {i : SlotNo} {r : Slot} (h : NothingDangles s)
    (hrun : s.gen.run = .stopped) (hp : s.pendingCount i = 0) (hq : s.queuedCount i = 0)
    (hr : ∀ d : DeviceNo, r.defined = true → r.device = some d →
      (s.device d).isPresent = true ∧ registerFits (s.device d) r.register = true) :
    NothingDangles (s.setSlot i r) := by
  obtain ⟨hslots, hstore, hqueue, hprimes, hnone, haddress⟩ := h
  have hother : ∀ j, j ≠ i → (s.setSlot i r).slot j = s.slot j := fun j hj =>
    (State.setSlot_slot ..).trans (if_neg (Ne.symm hj))
  refine ⟨fun j d hj hd => ?_, fun x hx => ?_, fun b e he => ?_, fun j hj => ?_, hnone, haddress⟩
  · rw [State.setSlot_slot] at hj hd ⊢
    split at hj
    · rw [if_pos ‹_›] at hd ⊢; exact hr d hj hd
    · rw [if_neg ‹_›] at hd ⊢; exact hslots j d hj hd
  · rw [hother]
    · exact hstore x hx
    · exact fun hi => List.countP_eq_zero.mp hp x hx (by simp [hi])
  · refine ⟨(hqueue b e he).1, (hqueue b e he).2.1, fun j hj => ?_⟩
    rw [hother]
    · exact (hqueue b e he).2.2 j hj
    · rintro rfl
      exact not_queued hq b e he hj
  · have hnil := hnone (by rw [hrun]; simp)
    change j ∈ s.gen.primeList at hj
    rw [hnil] at hj
    cases hj

theorem counts_of_not_busy {s : State} {i : SlotNo} (h : s.busy i = false) :
    s.pendingCount i = 0 ∧ s.queuedCount i = 0 ∧ s.isStaged i = false := by
  simpa [State.busy, and_assoc] using h

theorem inUse_of_slot {s : State} {d : DeviceNo} {i : SlotNo} (hi : (s.slot i).defined = true)
    (hd : (s.slot i).device = some d) : s.inUse d = true := by
  have hslot : s.slots.toList.any (fun r => r.defined && r.device == some d) = true :=
    List.any_eq_true.mpr ⟨s.slot i, by simp [State.slot], by simp [hi, hd]⟩
  simp [State.inUse, hslot]

theorem inUse_of_entry {s : State} {b : BusNo} {e : Entry} (he : e ∈ s.queue b) :
    s.inUse e.device = true := by
  have hany : (s.queue b).any (fun x => x.device == e.device) = true :=
    List.any_eq_true.mpr ⟨e, he, by simp⟩
  rcases ScheduleEvents.bus_cases b with rfl | rfl <;> simp [State.inUse, hany]

/-- R128: a device that is in use keeps its presence, its bus, its address and its address size. -/
theorem setDevice_identity {s : State} {d j : DeviceNo} {r : Device}
    (hu : s.inUse d = false ∨ changesIdentity (s.device d) r = false) (hj : s.inUse j = true)
    (hp : (s.device j).isPresent = true) : ((s.setDevice d r).device j).isPresent = true ∧
      ((s.setDevice d r).device j).bus = (s.device j).bus ∧
      ((s.setDevice d r).device j).size = (s.device j).size := by
  rw [State.setDevice_device]
  split
  · rename_i hdj
    subst hdj
    rcases hu with hu | hu
    · rw [hu] at hj; cases hj
    · simp only [changesIdentity, hp, Bool.or_eq_false_iff, Bool.true_and, Bool.not_eq_false',
        bne_eq_false_iff_eq] at hu
      obtain ⟨⟨⟨hpresent, hbus⟩, -⟩, hsize⟩ := hu
      exact ⟨hpresent, hbus.symm, hsize.symm⟩
  · exact ⟨hp, rfl, rfl⟩

theorem mem_allDevices : ∀ d : DeviceNo, d ∈ allDevices := by decide

theorem dangles_setDevice {s : State} {d : DeviceNo} {r : Device} (h : NothingDangles s)
    (hu : s.inUse d = false ∨ changesIdentity (s.device d) r = false)
    (ha : r.isPresent = false ∨ s.addressTaken d r = false) : NothingDangles (s.setDevice d r) := by
  obtain ⟨hslots, hstore, hqueue, hprimes, hnone, haddress⟩ := h
  have htaken : ∀ j : DeviceNo, j ≠ d → r.isPresent = true → (s.device j).isPresent = true →
      (s.device j).bus = r.bus → (s.device j).address ≠ r.address := by
    intro j hj hr hp hbus hadd
    rcases ha with ha | ha
    · rw [ha] at hr; cases hr
    · have := List.any_eq_false.mp ha j (mem_allDevices j)
      simp [hj, hp, hbus, hadd] at this
  refine ⟨fun i j hi hj => ?_, hstore, fun b e he => ?_, hprimes, hnone, fun j e hj he hb hadd => ?_⟩
  · obtain ⟨hp, hfits⟩ := hslots i j hi hj
    obtain ⟨hp', -, hsize⟩ := setDevice_identity hu (inUse_of_slot hi hj) hp
    refine ⟨hp', ?_⟩
    unfold registerFits
    rw [hsize]
    exact hfits
  · obtain ⟨hp, hb, hslot⟩ := hqueue b e he
    obtain ⟨hp', hbus, -⟩ := setDevice_identity hu (inUse_of_entry he) hp
    exact ⟨hp', hbus.trans hb, hslot⟩
  · rw [State.setDevice_device] at hj he hb hadd
    rw [State.setDevice_device] at hb hadd
    by_cases hdj : d = j
    · by_cases hde : d = e
      · exact hdj.symm.trans hde
      · rw [if_pos hdj] at hj hb hadd
        rw [if_neg hde] at he hb hadd
        exact absurd hadd.symm (htaken e (Ne.symm hde) hj he hb.symm)
    · rw [if_neg hdj] at hj hb hadd
      by_cases hde : d = e
      · rw [if_pos hde] at he hb hadd
        exact absurd hadd (htaken j (Ne.symm hdj) he hj hb)
      · rw [if_neg hde] at he hb hadd
        exact haddress j e hj he hb hadd

theorem dangles_requests : RequestLaw NothingDangles where
  defineSlot s i d register _ _ _ min max initial _ hrun hbusy _ hp hf h := by
    obtain ⟨hpending, hqueued, -⟩ := counts_of_not_busy hbusy
    refine dangles_setSlot h hrun hpending hqueued fun e _ he => ?_
    obtain rfl : d.device = e := Option.some.inj he
    exact ⟨hp, hf⟩
  undefineSlot s i _ hrun hp hq h :=
    dangles_same (dangles_setSlot (r := Slot.undefined) h hrun hp hq nofun) rfl
      (fun x hx => (dangles_setSlot (r := Slot.undefined) h hrun hp hq nofun).2.1 x hx) rfl ⟨rfl, rfl⟩
  claim _ _ _ h := dangles_same h rfl h.2.1 rfl ⟨rfl, rfl⟩
  token _ _ h := dangles_same h rfl h.2.1 rfl ⟨rfl, rfl⟩
  setLease _ _ _ _ h := dangles_same h rfl h.2.1 rfl ⟨rfl, rfl⟩
  openBatch _ _ _ _ _ _ _ _ _ _ h := dangles_same h rfl h.2.1 rfl ⟨rfl, rfl⟩
  restaged _ _ _ _ _ _ h := dangles_same h rfl h.2.1 rfl ⟨rfl, rfl⟩
  sealBatch s k n t slipped _ _ hd _ _ h := by
    refine dangles_same h rfl (fun x hx => ?_) rfl ⟨rfl, rfl⟩
    change x ∈ s.store ++ _ at hx
    rw [BatchRequests.pendingList_eq] at hx
    rcases List.mem_append.mp hx with hx | hx
    · exact h.2.1 x hx
    · obtain ⟨p, hp, rfl⟩ := List.mem_mapIdx.mp hx
      exact hd _ (List.getElem_mem hp)
  setGeometry _ _ _ _ _ _ _ _ h := dangles_same h rfl h.2.1 rfl ⟨rfl, rfl⟩
  defineDevice _ _ _ _ hu ha h := dangles_setDevice h hu ha
  busSpeed _ _ _ h := dangles_same h rfl h.2.1 rfl ⟨rfl, rfl⟩
  fetch _ _ _ h := dangles_same h rfl h.2.1 rfl ⟨rfl, rfl⟩
  subscribe _ _ _ _ _ h := dangles_same h rfl h.2.1 rfl ⟨rfl, rfl⟩
  detachEvents _ _ h := dangles_same h rfl h.2.1 rfl ⟨rfl, rfl⟩

theorem dangles_append {s : State} {b : BusNo} {e : Entry} (h : NothingDangles s)
    (he : EntryOk (frameOf s) b e) : NothingDangles (s.setQueue b (s.queue b ++ [e])) := by
  obtain ⟨hF, hr⟩ := nothingDangles_iff.mp h
  exact nothingDangles_iff.mpr ⟨hF, refers_append (F := frameOf s) hr he⟩

theorem dangles_entries : EntryLaw NothingDangles where
  now _ _ _ _ _ _ _ hi _ hd hb _ h :=
    dangles_append h (entryOk_slot (nothingDangles_iff.mp h).1 hi hd hb rfl rfl)
  probe _ _ _ _ _ _ _ _ hp hb _ h := dangles_append h ⟨hp, hb, nofun⟩

theorem reset_device (d : DeviceNo) : (State.reset.device d).isPresent = false := by
  have hd : State.reset.device d = Device.absent := Vector.getElem_replicate ..
  rw [hd]
  rfl

theorem reset_queue (b : BusNo) : State.reset.queue b = [] := by
  rcases ScheduleEvents.bus_cases b with rfl | rfl <;> rfl

theorem reset_slot_general {i : SlotNo} (hi : isLocal i = false) :
    State.reset.slot i = Slot.undefined := by
  have hlt : i.val < 232 := by simpa [isLocal] using hi
  change resetSlots[i.val] = Slot.undefined
  unfold resetSlots
  rw [Vector.getElem_append_left hlt, Vector.getElem_replicate]

theorem reset_slot_local {i : SlotNo} (hi : isLocal i = true) :
    State.reset.slot i = if isForm i then Slot.formSlot else Slot.edgeSlot := by
  have hall : ∀ j : Fin 24, State.reset.slot ⟨232 + j.val, by omega⟩ =
      if isForm ⟨232 + j.val, by omega⟩ then Slot.formSlot else Slot.edgeSlot := fun j => by
    change resetSlots[232 + j.val] = _
    unfold resetSlots
    refine (Vector.getElem_append_right (by omega) (Nat.le_add_right 232 j.val)).trans ?_
    simp only [Nat.add_sub_cancel_left]
    revert j
    decide
  have hle : 232 ≤ i.val := by simpa [isLocal] using hi
  have hi' : i = ⟨232 + (i.val - 232), by omega⟩ := Fin.ext (by simp; omega)
  have h := hall ⟨i.val - 232, by omega⟩
  dsimp only at h
  rwa [← hi'] at h

theorem reset_dangles : NothingDangles State.reset := by
  refine ⟨fun i d hi hd => ?_, nofun, fun b e he => ?_, nofun, fun _ => rfl, fun d e hd => ?_⟩
  · cases hlocal : isLocal i with
    | false => rw [reset_slot_general hlocal] at hi; cases hi
    | true =>
      rw [reset_slot_local hlocal] at hd
      split at hd <;> cases hd
  · rw [reset_queue] at he; cases he
  · rw [reset_device] at hd; cases hd

theorem dangles_kept : KeptByEveryStep NothingDangles :=
  kept_of_pieces dangles_pieces dangles_requests dangles_entries reset_dangles

/-! ### Admissible values (R4) -/

/-- R4, by the frame. -/
def fits (F : Frame) (i : SlotNo) (v : Value) : Bool :=
  decide ((F.slot i).min.toNat ≤ v.toNat) && decide (v.toNat ≤ (F.slot i).max.toNat) &&
    (!isForm i || formOk v)

/-- R4: the entries of a queue carry values that fit their slots. -/
def EntriesFit (F : Frame) (q : List Entry) : Prop :=
  ∀ e ∈ q, ∀ i : SlotNo, e.slot = some i → fits F i e.value = true

/-- R4, R38: so do the records of an OPEN batch, but for slots that have been undefined since. -/
def BatchFits (F : Frame) (b : Batch) : Prop :=
  b.state = .opened → ∀ x ∈ b.records, (F.slot x.slot).defined = true →
    fits F x.slot x.value = true

/-- R4: the values of a state. -/
structure ValuesFit (F : Frame) (s : State) : Prop where
  live : ∀ i : SlotNo, fits F i (s.slot i).live = true
  store : ∀ x ∈ s.store, fits F x.slot x.value = true
  queue : ∀ b : BusNo, EntriesFit F (s.queue b)
  batch : ∀ (k : Client) (n : Fin 4), BatchFits F (s.context k n)

theorem valuesAdmissible_iff {s : State} : ValuesAdmissible s ↔ ValuesFit (frameOf s) s :=
  ⟨fun ⟨h1, h2, h3, h4⟩ => ⟨h1, h2, h3, h4⟩, fun ⟨h1, h2, h3, h4⟩ => ⟨h1, h2, h3, h4⟩⟩

theorem forall_setContext {p : Client → Fin 4 → Batch → Prop} {s : State} {k : Client} {n : Fin 4}
    {b : Batch} (h : ∀ j m, p j m (s.context j m)) (hb : p k n b) :
    ∀ j m, p j m ((s.setContext k n b).context j m) := by
  intro j m
  rw [State.setContext_context]
  split
  · rename_i hkn; obtain ⟨rfl, rfl⟩ := hkn; exact hb
  · exact h j m

section
variable {F : Frame} {s : State}

theorem fit_same {t : State} (h : ValuesFit F s) (hslots : t.slots = s.slots)
    (hstore : ∀ x ∈ t.store, x ∈ s.store) (hq : t.queues = s.queues)
    (hb : t.batches.context = s.batches.context) : ValuesFit F t := by
  refine ⟨fun i => ?_, fun x hx => h.store x (hstore x hx), fun b => ?_, fun k n => ?_⟩
  · unfold State.slot; rw [hslots]; exact h.live i
  · unfold State.queue; rw [hq]; exact h.queue b
  · unfold State.context; rw [hb]; exact h.batch k n

theorem fit_setQueue {b : BusNo} {q : List Entry} (h : ValuesFit F s) (hq : EntriesFit F q) :
    ValuesFit F (s.setQueue b q) :=
  ⟨h.live, h.store, forall_setQueue (p := fun _ => EntriesFit F) h.queue hq, h.batch⟩

theorem fit_append {b : BusNo} {e : Entry} (h : ValuesFit F s)
    (he : ∀ i : SlotNo, e.slot = some i → fits F i e.value = true) :
    ValuesFit F (s.setQueue b (s.queue b ++ [e])) := by
  refine fit_setQueue h fun x hx => ?_
  rcases List.mem_append.mp hx with hx | hx
  · exact h.queue b x hx
  · rw [List.mem_singleton.mp hx]; exact he

theorem fit_setContext {k : Client} {n : Fin 4} {b : Batch} (h : ValuesFit F s)
    (hb : BatchFits F b) : ValuesFit F (s.setContext k n b) :=
  ⟨h.live, h.store, h.queue, forall_setContext (p := fun _ _ => BatchFits F) h.batch hb⟩

theorem fit_live {i : SlotNo} {r : Slot} (h : ValuesFit F s) (hr : fits F i r.live = true) :
    ValuesFit F (s.setSlot i r) := by
  refine ⟨fun j => ?_, h.store, h.queue, h.batch⟩
  rw [State.setSlot_slot]
  split
  · rename_i hij; exact hij ▸ hr
  · exact h.live j

theorem batchFits_empty : BatchFits F Batch.empty := nofun

/-- R50 to R52: no sealed batch becomes OPEN. -/
theorem not_opened_of_batchMove {b b' : Batch} (h : BatchMove b b') : b'.state ≠ .opened := by
  have hne : b.isSealed = true → b.state ≠ .opened := fun hs ho => by
    simp [Batch.isSealed, ho] at hs
  cases h with
  | completed => exact nofun
  | tallied o hs => cases o <;> exact hne hs
  | releasing => exact nofun

end

theorem fit_pieces (F : Frame) : PieceLaw F (fun x => fits F x.slot x.value = true)
    (fun _ => True) (fun s => frameOf s = F ∧ ValuesFit F s) where
  host _ _ h := ⟨h.1, fit_same h.2 rfl (fun _ => id) rfl rfl⟩
  phase _ _ h := ⟨h.1, fit_same h.2 rfl (fun _ => id) rfl rfl⟩
  pending _ _ h := ⟨h.1, fit_same h.2 rfl (fun _ => id) rfl rfl⟩
  draws _ _ h := ⟨h.1, fit_same h.2 rfl (fun _ => id) rfl rfl⟩
  lease _ _ h := ⟨h.1, fit_same h.2 rfl (fun _ => id) rfl rfl⟩
  offer _ _ h := ⟨h.1, fit_same h.2 rfl (fun _ => id) rfl rfl⟩
  batch _ _ _ _ hm h :=
    ⟨h.1, fit_setContext h.2 fun ho => absurd ho (not_opened_of_batchMove hm)⟩
  sealList _ _ h := ⟨h.1, fit_same h.2 rfl (fun _ => id) rfl rfl⟩
  unstore _ _ h := ⟨h.1, fit_same h.2 rfl (fun _ => List.mem_of_mem_filter) rfl rfl⟩
  frame _ h := h.1
  good _ x h hx := h.2.store x hx
  goodSlot _ _ _ _ := trivial
  gen _ _ _ h := ⟨h.1, fit_same h.2 rfl (fun _ => id) rfl rfl⟩
  primes _ _ h := ⟨h.1, fit_same h.2 rfl (fun _ => id) rfl rfl⟩
  outputs _ _ h := ⟨h.1, fit_same h.2 rfl (fun _ => id) rfl rfl⟩
  marks _ h := ⟨h.1, fit_same h.2 rfl (fun _ => id) rfl rfl⟩
  probes _ _ _ h := ⟨h.1, h.2.live, h.2.store, h.2.queue, h.2.batch⟩
  queue s b q hq h := by
    refine ⟨h.1, fit_setQueue h.2 fun e' he' i hi => ?_⟩
    obtain ⟨e, he, hsame⟩ := hq.same e' he'
    rw [hsame.value]
    exact h.2.queue b e he i (hsame.slot ▸ hi)
  write s b x d late hx _ _ _ h := by
    refine ⟨h.1, fit_append h.2 fun i hi => ?_⟩
    obtain rfl : x.slot = i := Option.some.inj hi
    exact hx
  prime s b i d _ _ _ _ h := by
    refine ⟨h.1, fit_append h.2 fun j hj => ?_⟩
    obtain rfl : i = j := Option.some.inj hj
    exact h.2.live i
  recordState s x st h := by
    refine ⟨h.1, h.2.live, fun y hy => ?_, h.2.queue, h.2.batch⟩
    obtain ⟨z, hz, rfl⟩ := List.mem_map.mp hy
    have hfits : fits F z.slot z.value = true := h.2.store z hz
    split <;> exact hfits
  applyLocal _ _ hx _ h := ⟨(frameOf_applyLocal _ _).trans h.1, fit_live h.2 hx⟩
  complete s b e rest done hq h := by
    refine ⟨(frameOf_completeSlot ..).trans h.1, ?_⟩
    have hentry := h.2.queue b
    rw [hq] at hentry
    have hrest : ValuesFit F (s.setQueue b rest) :=
      fit_setQueue h.2 fun x hx => hentry x (List.mem_cons_of_mem _ hx)
    unfold completeSlot
    split
    · exact hrest
    · have hvalue := hentry e (List.mem_cons_self ..) _ ‹_›
      dsimp only
      split
      · exact fit_live hrest hvalue
      · exact fit_live hrest hvalue
  engine _ _ _ _ h := ⟨h.1, fit_same h.2 rfl (fun _ => id) rfl rfl⟩
  claims _ _ _ h := ⟨h.1, fit_same h.2 rfl (fun _ => id) rfl rfl⟩
  dropOpen _ _ _ _ h := ⟨h.1, fit_setContext h.2 batchFits_empty⟩

theorem values_pieces (F : Frame) : PieceLaw F (fun x => fits F x.slot x.value = true)
    (fun _ => True) (fun s => frameOf s = F ∧ ValuesAdmissible s) := by
  have hsame : (fun s => frameOf s = F ∧ ValuesAdmissible s) =
      fun s => frameOf s = F ∧ ValuesFit F s := by
    funext s
    refine propext (and_congr_right fun hF => ?_)
    rw [valuesAdmissible_iff, hF]
  rw [hsame]
  exact fit_pieces F

/-- R12 step 6: an initial value lies within the limits. -/
theorem initial_within {device format kind : Byte} {min max initial : Value} {d : Descriptor}
    (h : descriptorOf device format kind min max initial = some d) :
    min.toNat ≤ initial.toNat ∧ initial.toNat ≤ max.toNat := by
  simp only [descriptorOf, Option.bind_eq_bind, Option.bind_eq_some_iff] at h
  obtain ⟨_, -, _, -, _, -, _, -, h⟩ := h
  split at h
  · rename_i hok
    simp only [Bool.and_eq_true, decide_eq_true_eq] at hok
    exact ⟨hok.1.2, hok.2⟩
  · cases h

theorem isStaged_of_record {s : State} {k : Client} {n : Fin 4} {x : Staged}
    (ho : (s.context k n).state = .opened) (hx : x ∈ (s.context k n).records) :
    s.isStaged x.slot = true := by
  have hall : ∀ j : Client, j ∈ allClients := by decide
  have hcontexts : ∀ m : Fin 4, m ∈ ([0, 1, 2, 3] : List (Fin 4)) := by decide
  have hrecord : (s.context k n).records.any (fun r => r.slot == x.slot) = true :=
    List.any_eq_true.mpr ⟨x, hx, by simp⟩
  exact List.any_eq_true.mpr ⟨k, hall k, List.any_eq_true.mpr ⟨n, hcontexts n, by
    simp [ho, hrecord]⟩⟩

/-- A slot's record is written while no value is on its way to it: neither pending nor queued, and
staged only where the slot is not DEFINED. -/
theorem values_setSlot {s : State} {i : SlotNo} {r : Slot} (h : ValuesAdmissible s)
    (hp : s.pendingCount i = 0) (hq : s.queuedCount i = 0)
    (hstaged : r.defined = true → s.isStaged i = false)
    (hr : (s.setSlot i r).admissible i r.live = true) : ValuesAdmissible (s.setSlot i r) := by
  obtain ⟨hlive, hstore, hqueue, hbatch⟩ := h
  have hother : ∀ j, j ≠ i → (s.setSlot i r).slot j = s.slot j := fun j hj =>
    (State.setSlot_slot ..).trans (if_neg (Ne.symm hj))
  have hadmit : ∀ j v, j ≠ i → (s.setSlot i r).admissible j v = s.admissible j v := fun j v hj => by
    unfold State.admissible; rw [hother j hj]
  refine ⟨fun j => ?_, fun x hx => ?_, fun b e he j hj => ?_, fun k n ho x hx hd => ?_⟩
  · by_cases hji : j = i
    · subst hji; rw [State.setSlot_slot, if_pos rfl]; exact hr
    · rw [hadmit j _ hji, hother j hji]; exact hlive j
  · rw [hadmit]
    · exact hstore x hx
    · exact fun hi => List.countP_eq_zero.mp hp x hx (by simp [hi])
  · rw [hadmit]
    · exact hqueue b e he j hj
    · rintro rfl
      exact not_queued hq b e he hj
  · by_cases hxi : x.slot = i
    · rw [hxi, State.setSlot_slot, if_pos rfl] at hd
      have hfound : s.isStaged x.slot = true := isStaged_of_record ho hx
      rw [hxi, hstaged hd] at hfound
      cases hfound
    · rw [hadmit _ _ hxi]
      rw [hother _ hxi] at hd
      exact hbatch k n ho x hx hd

theorem admissible_within {s : State} {i : SlotNo} {v : Value} (hi : isLocal i = false)
    (hmin : (s.slot i).min.toNat ≤ v.toNat) (hmax : v.toNat ≤ (s.slot i).max.toNat) :
    s.admissible i v = true := by
  simp [State.admissible, isForm, hi, hmin, hmax]

theorem values_of_fit {s t : State} (h : ValuesAdmissible s) (hf : frameOf t = frameOf s)
    (ht : ValuesFit (frameOf s) s → ValuesFit (frameOf s) t) : ValuesAdmissible t := by
  rw [valuesAdmissible_iff, hf]
  exact ht (valuesAdmissible_iff.mp h)

theorem values_same {s t : State} (h : ValuesAdmissible s) (hf : frameOf t = frameOf s)
    (hslots : t.slots = s.slots) (hstore : t.store = s.store) (hq : t.queues = s.queues)
    (hb : t.batches.context = s.batches.context) : ValuesAdmissible t :=
  values_of_fit h hf fun g => fit_same g hslots (fun _ hx => hstore ▸ hx) hq hb

theorem values_requests : RequestLaw ValuesAdmissible where
  defineSlot s i d register device format kind min max initial hl _ hbusy hd _ _ h := by
    obtain ⟨hp, hq, hstaged⟩ := counts_of_not_busy hbusy
    obtain ⟨hmin, hmax⟩ := initial_within hd
    refine values_setSlot h hp hq (fun _ => hstaged) (admissible_within hl ?_ ?_)
    · rw [State.setSlot_slot, if_pos rfl]; exact hmin
    · rw [State.setSlot_slot, if_pos rfl]; exact hmax
  undefineSlot s i hl _ hp hq h := by
    have hset : ValuesAdmissible (s.setSlot i Slot.undefined) := by
      refine values_setSlot h hp hq nofun (admissible_within hl ?_ ?_)
      · rw [State.setSlot_slot, if_pos rfl]; exact Nat.le_refl _
      · rw [State.setSlot_slot, if_pos rfl]; exact Nat.le_refl _
    exact values_same hset rfl rfl rfl rfl rfl
  claim _ _ _ h := values_same h rfl rfl rfl rfl rfl
  token _ _ h := values_same h rfl rfl rfl rfl rfl
  setLease _ _ _ _ h := values_same h rfl rfl rfl rfl rfl
  openBatch s k n id b _ _ _ hempty _ h := by
    have hset : ValuesAdmissible (s.setContext k n b) :=
      values_of_fit h rfl fun g => fit_setContext g fun _ x hx => by rw [hempty] at hx; cases hx
    exact values_same hset rfl rfl rfl rfl rfl
  restaged s k n b ho hb h := by
    refine values_of_fit h rfl fun g => fit_setContext g fun _ x hx hd => ?_
    rcases hb.records x hx with hold | hnew
    · exact g.batch k n ho x hold hd
    · exact hnew.2.2
  sealBatch s k n t slipped ho _ hd _ _ h := by
    refine values_of_fit h rfl fun g => ⟨g.live, fun x hx => ?_, g.queue, ?_⟩
    · change x ∈ s.store ++ _ at hx
      rw [BatchRequests.pendingList_eq] at hx
      rcases List.mem_append.mp hx with hx | hx
      · exact g.store x hx
      · obtain ⟨p, hp, rfl⟩ := List.mem_mapIdx.mp hx
        exact g.batch k n ho _ (List.getElem_mem hp) (hd _ (List.getElem_mem hp))
    · exact forall_setContext (p := fun _ _ => BatchFits (frameOf s)) (s := s) g.batch nofun
  setGeometry _ _ _ _ _ _ _ _ h := values_same h rfl rfl rfl rfl rfl
  defineDevice _ _ _ _ _ _ h := h
  busSpeed _ _ _ h := values_same h rfl rfl rfl rfl rfl
  fetch _ _ _ h := values_same h rfl rfl rfl rfl rfl
  subscribe _ _ _ _ _ h := values_same h rfl rfl rfl rfl rfl
  detachEvents _ _ h := values_same h rfl rfl rfl rfl rfl

theorem values_entries : EntryLaw ValuesAdmissible where
  now s b i d v k tag _ hv _ _ _ h := by
    refine values_of_fit h rfl fun g => fit_append g fun j hj => ?_
    obtain rfl : i = j := Option.some.inj hj
    exact hv
  probe _ _ _ _ _ _ _ _ _ _ _ h := values_of_fit h rfl fun g => fit_append g nofun

theorem reset_context (k : Client) (n : Fin 4) : State.reset.context k n = Batch.empty := by
  change (resetBatches.context[k.val])[n.val] = _
  unfold resetBatches
  simp

theorem reset_values : ValuesAdmissible State.reset := by
  refine ⟨fun i => ?_, nofun, fun b e he => ?_, fun k n ho => ?_⟩
  · unfold State.admissible
    cases hlocal : isLocal i with
    | false => rw [reset_slot_general hlocal]; simp [isForm, hlocal, Slot.undefined]
    | true =>
      rw [reset_slot_local hlocal]
      cases hform : isForm i with
      | true => decide
      | false => decide
  · rw [reset_queue] at he; cases he
  · rw [reset_context] at ho; cases ho

theorem values_kept : KeptByEveryStep ValuesAdmissible :=
  kept_of_pieces values_pieces values_requests values_entries reset_values

end Sys2Proof.TableContents
end


section
/-! PROOFS. The law of the local slots (R9, R142): their descriptors stay, nothing is queued for them, and
an output's program is that of its two slots. -/

set_option Elab.async false

namespace Sys2Proof.LocalSlots

open Sys2Proof Sys2Proof.Machine Sys2Proof.Commands Sys2Proof.Rules Sys2Proof.Effects
open Sys2Proof.Schedule Sys2Proof.Carrying Sys2Proof.Leases Sys2Proof.Pieces
open Sys2Proof.PieceRequests Sys2Proof.TableLaws Sys2Proof.TableContents

/-! ### Descriptors and queues (R9) -/

/-- R9: no entry is queued for a local slot. -/
def NoLocal (q : List Entry) : Prop :=
  ∀ e ∈ q, ∀ i : SlotNo, e.slot = some i → isLocal i = false

/-- R9: the local slots keep their descriptors and are VALID, and nothing is queued for them. -/
def LocalsFixed (s : State) : Prop :=
  (∀ i : SlotNo, isLocal i = true → LocalDescriptor i (s.slot i)) ∧
    ∀ b : BusNo, NoLocal (s.queue b)

/-- R142: every output's held program is that of the live values of its two slots. -/
def ProgramsLive (s : State) : Prop :=
  ∀ k : Fin 12, (s.output k).program = s.liveProgram k

theorem localSlots_iff {s : State} :
    LocalSlotsWithinRules s ↔ LocalsFixed s ∧ ProgramsLive s :=
  ⟨fun ⟨h1, h2, h3⟩ => ⟨⟨h1, h2⟩, h3⟩, fun ⟨⟨h1, h2⟩, h3⟩ => ⟨h1, h2, h3⟩⟩

theorem not_local_of_device {s : State} {i : SlotNo} {d : DeviceNo} (h : LocalsFixed s)
    (hd : (s.slot i).device = some d) : isLocal i = false := by
  cases hlocal : isLocal i with
  | false => rfl
  | true => rw [(h.1 i hlocal).2.1] at hd; cases hd

theorem fixed_setQueue {s : State} {b : BusNo} {q : List Entry} (h : LocalsFixed s)
    (hq : NoLocal q) : LocalsFixed (s.setQueue b q) :=
  ⟨h.1, forall_setQueue (p := fun _ => NoLocal) h.2 hq⟩

theorem fixed_append {s : State} {b : BusNo} {e : Entry} (h : LocalsFixed s)
    (he : ∀ i : SlotNo, e.slot = some i → isLocal i = false) :
    LocalsFixed (s.setQueue b (s.queue b ++ [e])) := by
  refine fixed_setQueue h fun x hx => ?_
  rcases List.mem_append.mp hx with hx | hx
  · exact h.2 b x hx
  · rw [List.mem_singleton.mp hx]; exact he

theorem fixed_setSlot {s : State} {i : SlotNo} {r : Slot} (h : LocalsFixed s)
    (hr : isLocal i = true → LocalDescriptor i r) : LocalsFixed (s.setSlot i r) := by
  refine ⟨fun j hj => ?_, h.2⟩
  rw [State.setSlot_slot]
  split
  · rename_i hij; subst hij; exact hr hj
  · exact h.1 j hj

theorem fixed_same {s t : State} (h : LocalsFixed s) (hslots : t.slots = s.slots)
    (hq : t.queues = s.queues) : LocalsFixed t := by
  refine ⟨fun i hi => ?_, fun b => ?_⟩
  · unfold State.slot; rw [hslots]; exact h.1 i hi
  · unfold State.queue; rw [hq]; exact h.2 b

/-- An entry's completion reaches its own slot alone. -/
theorem completeSlot_slot_ne {e : Entry} {done : Bool} {s : State} {j : SlotNo}
    (h : e.slot ≠ some j) : (completeSlot e done s).slot j = s.slot j := by
  unfold completeSlot
  split
  · rfl
  · rename_i i hi
    have hij : i ≠ j := fun hij => h (hij ▸ hi)
    dsimp only
    split
    · rw [State.setSlot_slot, if_neg hij]
    · rw [State.setSlot_slot, if_neg hij]

theorem fixed_pieces (F : Frame) : PieceLaw F (fun _ => True) (fun _ => True)
    (fun s => frameOf s = F ∧ LocalsFixed s) where
  host _ _ h := h
  phase _ _ h := h
  pending _ _ h := h
  draws _ _ h := h
  lease _ _ h := h
  offer _ _ h := h
  batch _ _ _ _ _ h := h
  sealList _ _ h := h
  unstore _ _ h := h
  frame _ h := h.1
  good _ _ _ _ := trivial
  goodSlot _ _ _ _ := trivial
  gen _ _ _ h := h
  primes _ _ h := h
  outputs _ _ h := h
  marks _ h := h
  probes _ _ _ h := h
  queue s b q hq h := by
    refine ⟨h.1, fixed_setQueue h.2 fun e' he' i hi => ?_⟩
    obtain ⟨e, he, hsame⟩ := hq.same e' he'
    exact h.2.2 b e he i (hsame.slot ▸ hi)
  write s b x d late _ hd _ _ h := by
    refine ⟨h.1, fixed_append h.2 fun i hi => ?_⟩
    obtain rfl : x.slot = i := Option.some.inj hi
    exact not_local_of_device h.2 hd
  prime s b i d _ hd _ _ h := by
    refine ⟨h.1, fixed_append h.2 fun j hj => ?_⟩
    obtain rfl : i = j := Option.some.inj hj
    exact not_local_of_device h.2 hd
  recordState _ _ _ h := h
  applyLocal s x _ _ h := by
    refine ⟨(frameOf_applyLocal _ _).trans h.1, fixed_setSlot h.2 fun hlocal => ?_⟩
    obtain ⟨hdef, hdev, hreg, hcls, hlead, hprime, horder, hmin, -, hedge, hform⟩ :=
      h.2.1 x.slot hlocal
    exact ⟨hdef, hdev, hreg, hcls, hlead, hprime, horder, hmin, rfl, hedge, hform⟩
  complete s b e rest done hq h := by
    have hqueue := h.2.2 b
    rw [hq] at hqueue
    have hrest : LocalsFixed (s.setQueue b rest) :=
      fixed_setQueue h.2 fun x hx => hqueue x (List.mem_cons_of_mem _ hx)
    refine ⟨(frameOf_completeSlot ..).trans h.1, fun i hi => ?_, fun c => ?_⟩
    · rw [completeSlot_slot_ne]
      · exact hrest.1 i hi
      · intro he
        rw [hqueue e (List.mem_cons_self ..) i he] at hi
        cases hi
    · unfold State.queue
      rw [completeSlot_queues]
      exact hrest.2 c
  engine _ _ _ _ h := h
  claims _ _ _ h := h
  dropOpen _ _ _ _ h := h

/-! ### Programs (R142) -/

theorem takeProgram_program (o : TimingOutput) (p : Program) (c : Epoch) (vspan : Nat) :
    (o.takeProgram p c vspan).program = p := rfl

theorem edge_isLocal (k : Fin 12) : isLocal (edgeSlotNo k) = true :=
  decide_eq_true (Nat.le_add_right 232 (2 * k.val))

theorem form_isLocal (k : Fin 12) : isLocal (formSlotNo k) = true :=
  decide_eq_true (show 232 ≤ 233 + 2 * k.val by omega)

theorem programs_same {s t : State} (h : ProgramsLive s)
    (ho : ∀ k : Fin 12, (t.output k).program = (s.output k).program)
    (hslots : ∀ i, isLocal i = true → t.slot i = s.slot i) : ProgramsLive t := by
  intro k
  unfold State.liveProgram
  rw [ho, hslots _ (edge_isLocal k), hslots _ (form_isLocal k)]
  exact h k

theorem programs_frame {s t : State} (h : ProgramsLive s) (ho : t.outputs = s.outputs)
    (hslots : t.slots = s.slots) : ProgramsLive t :=
  programs_same h (fun k => by unfold State.output; rw [ho]) fun i _ => by
    unfold State.slot; rw [hslots]

/-- R143: at a boundary every output takes the program of its slots. -/
theorem boundary_programs (w : Work) : ProgramsLive (boundary w).st := by
  intro k
  obtain ⟨s, -, -, hs, hout⟩ := boundary_output w k
  have hslots : (boundary w).st.slots = (takePrograms (releaseDue { w with out := [] }).st).slots :=
    advanceMarks_slots _
  rw [takePrograms_slots, ← hs] at hslots
  have hlive : (boundary w).st.liveProgram k = s.liveProgram k := by
    unfold State.liveProgram State.slot
    rw [hslots]
  rw [hout, hlive, takeProgram_program]

/-- The law of the local slots, for the states of one frame. -/
abbrev LocalsIn (F : Frame) (s : State) : Prop := frameOf s = F ∧ LocalSlotsWithinRules s

theorem localsIn_iff {F : Frame} {s : State} :
    LocalsIn F s ↔ (frameOf s = F ∧ LocalsFixed s) ∧ ProgramsLive s := by
  rw [LocalsIn, localSlots_iff, and_assoc]

/-- What leaves the outputs and the slots keeps the programs. -/
theorem localsIn_of {F : Frame} {s t : State} (h : LocalsIn F s)
    (ht : frameOf s = F ∧ LocalsFixed s → frameOf t = F ∧ LocalsFixed t)
    (ho : t.outputs = s.outputs) (hslots : t.slots = s.slots) : LocalsIn F t :=
  localsIn_iff.mpr ⟨ht (localsIn_iff.mp h).1, programs_frame (localsIn_iff.mp h).2 ho hslots⟩

theorem workLaw (F : Frame) : WorkLaw (LocalsIn F) where
  host s g h := localsIn_of h ((fixed_pieces F).host s g) rfl rfl
  phase s p h := localsIn_of h ((fixed_pieces F).phase s p) rfl rfl
  pending s l h := localsIn_of h ((fixed_pieces F).pending s l) rfl rfl
  draws s n h := localsIn_of h ((fixed_pieces F).draws s n) rfl rfl
  lease s k h := localsIn_of h ((fixed_pieces F).lease s k) rfl rfl
  offer s o h := localsIn_of h ((fixed_pieces F).offer s o) rfl rfl
  resolve r p o w h := localsIn_of h ((fixed_pieces F).resolve r p o w)
    (resolve_outputs ..) (resolve_slots ..)
  gen s g hg h := localsIn_of h ((fixed_pieces F).gen s g hg) rfl rfl
  outputs s v hv h := localsIn_iff.mpr ⟨(fixed_pieces F).outputs s v (localsIn_iff.mp h).1,
    programs_same (localsIn_iff.mp h).2 hv fun _ _ => rfl⟩
  marks s h := localsIn_of h ((fixed_pieces F).marks s) (advanceMarks_outputs s) rfl
  probes s k n h := localsIn_of h ((fixed_pieces F).probes s k n) rfl rfl
  late _ d h := localsIn_of h ((fixed_pieces F).markQueuesLate d)
    (markQueuesLate_outputs ..) (markQueuesLate_slots ..)
  abandon s h := localsIn_of h (fixed_pieces F).abandonPrimes
    (abandonPrimes_outputs s) (abandonPrimes_slots s)

theorem opLaw (F : Frame) : OpLaw (LocalsIn F) (fun _ => LocalsIn F) where
  work := workLaw F
  between _ := workLaw F
  pop s b e rest hq h := localsIn_of h ((fixed_pieces F).opLaw.pop s b e rest hq) rfl rfl
  complete s b e rest done hq h := by
    obtain ⟨hfixed, hlive⟩ := localsIn_iff.mp h
    refine localsIn_iff.mpr ⟨(fixed_pieces F).complete s b e rest done hq hfixed,
      programs_same hlive (fun k => ?_) fun i hi => ?_⟩
    · unfold State.output; rw [completeSlot_outputs]; rfl
    · refine completeSlot_slot_ne fun he => ?_
      rw [hfixed.2.2 b e (hq ▸ List.mem_cons_self ..) i he] at hi
      cases hi
  fill b _ h := localsIn_of h ((fixed_pieces F).fillPlaces b)
    (fillPlaces_outputs ..) (fillPlaces_slots ..)
  place s h := localsIn_of h (fixed_pieces F).placePrimes (placePrimes_outputs s)
    (placePrimes_slots s)
  primes s hrun h := localsIn_of h ((fixed_pieces F).primes s hrun) rfl rfl
  boundary w h := localsIn_iff.mpr
    ⟨(fixed_pieces F).boundary w (localsIn_iff.mp h).1, boundary_programs w⟩
  engine s b e he h := localsIn_of h ((fixed_pieces F).engine s b e he) rfl rfl
  attempts b s h := localsIn_of h ((fixed_pieces F).noteAttempts b)
    (noteAttempts_outputs ..) (noteAttempts_slots ..)
  handOver s b n stamp h := localsIn_of h ((fixed_pieces F).opLaw.handOver s b n stamp) rfl rfl
  tickLease w k h := by
    refine localsIn_of h ((fixed_pieces F).tickLease w k) ?_ ?_
    · rw [tickLease_frame]
    · rw [tickLease_frame]
  detachQueue k s b h := localsIn_of h ((fixed_pieces F).detachQueue k s b)
    (detachQueue_outputs ..) (detachQueue_slots ..)
  resetTables s h := localsIn_of h ((fixed_pieces F).opLaw.resetTables s)
    ((resetBatchesAndStore_outputs _).trans (resetQueueEntries_outputs s))
    ((resetBatchesAndStore_slots _).trans (resetQueueEntries_slots s))

/-! ### The requests -/

theorem locals_frame {s t : State} (h : LocalSlotsWithinRules s) (hslots : t.slots = s.slots)
    (hq : t.queues = s.queues) (ho : t.outputs = s.outputs) : LocalSlotsWithinRules t :=
  localSlots_iff.mpr ⟨fixed_same (localSlots_iff.mp h).1 hslots hq,
    programs_frame (localSlots_iff.mp h).2 ho hslots⟩

/-- The record of a general slot is written. -/
theorem locals_setSlot {s : State} {i : SlotNo} {r : Slot} (hi : isLocal i = false)
    (h : LocalSlotsWithinRules s) : LocalSlotsWithinRules (s.setSlot i r) := by
  obtain ⟨hfixed, hlive⟩ := localSlots_iff.mp h
  refine localSlots_iff.mpr ⟨fixed_setSlot hfixed fun hl => ?_,
    programs_same hlive (fun _ => rfl) fun j hj => ?_⟩
  · rw [hi] at hl; cases hl
  · rw [State.setSlot_slot, if_neg]
    rintro rfl
    rw [hi] at hj; cases hj

theorem locals_requests : RequestLaw LocalSlotsWithinRules where
  defineSlot _ _ _ _ _ _ _ _ _ _ hl _ _ _ _ _ h := locals_setSlot hl h
  undefineSlot _ i hl _ _ _ h :=
    locals_frame (locals_setSlot (i := i) (r := Slot.undefined) hl h) rfl rfl rfl
  claim _ _ _ h := locals_frame h rfl rfl rfl
  token _ _ h := locals_frame h rfl rfl rfl
  setLease _ _ _ _ h := locals_frame h rfl rfl rfl
  openBatch _ _ _ _ _ _ _ _ _ _ h := locals_frame h rfl rfl rfl
  restaged _ _ _ _ _ _ h := locals_frame h rfl rfl rfl
  sealBatch _ _ _ _ _ _ _ _ _ _ h := locals_frame h rfl rfl rfl
  setGeometry _ _ _ _ _ _ _ _ h := locals_frame h rfl rfl rfl
  defineDevice _ _ _ _ _ _ h := locals_frame h rfl rfl rfl
  busSpeed _ _ _ h := locals_frame h rfl rfl rfl
  fetch _ _ _ h := locals_frame h rfl rfl rfl
  subscribe _ _ _ _ _ h := locals_frame h rfl rfl rfl
  detachEvents _ _ h := locals_frame h rfl rfl rfl

theorem locals_append {s : State} {b : BusNo} {e : Entry} (h : LocalSlotsWithinRules s)
    (he : ∀ i : SlotNo, e.slot = some i → isLocal i = false) :
    LocalSlotsWithinRules (s.setQueue b (s.queue b ++ [e])) := by
  obtain ⟨hfixed, hlive⟩ := localSlots_iff.mp h
  exact localSlots_iff.mpr ⟨fixed_append hfixed he, programs_frame hlive rfl rfl⟩

theorem locals_queueRequests : QueueRequestLaw LocalSlotsWithinRules where
  claims _ _ _ h := locals_frame h rfl rfl rfl
  dropOpen _ _ _ _ h := locals_frame h rfl rfl rfl
  cancel _ _ _ _ h := locals_frame h rfl rfl rfl
  writeNow s b i d v k tag _ _ _ hd _ h := by
    have hs : LocalSlotsWithinRules (supersede b i (begin s)).st :=
      (localsIn_of (F := frameOf s) ⟨rfl, h⟩ ((fixed_pieces (frameOf s)).supersede b i (w := begin s))
        (supersede_outputs ..) (supersede_slots ..)).2
    refine append_keeps hs fun _ => locals_append hs fun j hj => ?_
    obtain rfl : i = j := Option.some.inj hj
    exact not_local_of_device (localSlots_iff.mp h).1 hd
  probe s b d k tag register width order _ _ h := by
    have ha : LocalSlotsWithinRules (append b (probeEntry k tag d register width order) s) :=
      append_keeps h fun _ => locals_append h nofun
    obtain ⟨⟨hslots, hq⟩, hlive⟩ := localSlots_iff.mp ha
    exact localSlots_iff.mpr ⟨⟨hslots, hq⟩, programs_frame hlive rfl rfl⟩
  recover _ _ _ _ h := locals_frame h rfl rfl rfl

theorem localDescriptor_edge {i : SlotNo} (h : isForm i = false) :
    LocalDescriptor i Slot.edgeSlot :=
  ⟨rfl, rfl, rfl, rfl, rfl, rfl, rfl, rfl, rfl, fun _ => ⟨rfl, rfl⟩, fun hf => by
    rw [h] at hf; cases hf⟩

theorem localDescriptor_form {i : SlotNo} (h : isForm i = true) :
    LocalDescriptor i Slot.formSlot :=
  ⟨rfl, rfl, rfl, rfl, rfl, rfl, rfl, rfl, rfl, fun hf => absurd (h.symm.trans hf) nofun,
    fun _ => ⟨rfl, rfl⟩⟩

theorem reset_locals : LocalSlotsWithinRules State.reset := by
  refine ⟨fun i hi => ?_, fun b e he => ?_, fun k => ?_⟩
  · rw [reset_slot_local hi]
    split
    · exact localDescriptor_form ‹_›
    · exact localDescriptor_edge (Bool.not_eq_true _ ▸ ‹_›)
  · rw [reset_queue] at he; cases he
  · have hedge : (State.reset.slot (edgeSlotNo k)).live = 0 := by
      rw [reset_slot_local (edge_isLocal k)]
      split <;> rfl
    have hform : (State.reset.slot (formSlotNo k)).live = 0 := by
      rw [reset_slot_local (form_isLocal k)]
      split <;> rfl
    have hout : State.reset.output k = TimingOutput.reset := Vector.getElem_replicate ..
    unfold State.liveProgram
    rw [hedge, hform, hout]
    rfl

theorem locals_kept : KeptByEveryStep LocalSlotsWithinRules :=
  kept_of_opLaw opLaw locals_requests locals_queueRequests reset_locals

/-- Settles O57: each of the three laws by its pieces. -/
theorem everyStepKeepsTheTables : Obligations.EveryStepKeepsTheTables :=
  ⟨locals_kept, values_kept, dangles_kept⟩

end Sys2Proof.LocalSlots
end


section
/-! PROOFS. The law of the batch contexts and their books (R36 to R38, R51, R64). -/

set_option Elab.async false

namespace Sys2Proof.Books

open Sys2Proof Sys2Proof.Machine Sys2Proof.Commands Sys2Proof.Rules Sys2Proof.Effects
open Sys2Proof.Schedule Sys2Proof.Carrying Sys2Proof.Pieces Sys2Proof.PieceRequests
open Sys2Proof.TableLaws Sys2Proof.TableContents

/-! ### One context -/

theorem empty_withinRules : Batch.empty.WithinRules :=
  ⟨fun _ => rfl, fun h => absurd rfl h, nofun, nofun, Nat.zero_le _, List.nodup_nil, nofun⟩

theorem not_free_of_sealed {b : Batch} (h : b.isSealed = true) : b.state ≠ .free := fun hf => by
  simp [Batch.isSealed, hf] at h

theorem not_opened_of_sealed {b : Batch} (h : b.isSealed = true) : b.state ≠ .opened := fun hf => by
  simp [Batch.isSealed, hf] at h

/-- R51: an outcome leaves all but the counts. -/
theorem tally_same (b : Batch) (o : RecordOutcome) : (b.tally o).state = b.state ∧
    (b.tally o).id = b.id ∧ (b.tally o).records = b.records ∧ (b.tally o).count = b.count ∧
    (b.tally o).unresolved = b.unresolved - 1 := by
  cases o <;> exact ⟨rfl, rfl, rfl, rfl, rfl⟩

/-- R51: a resolved record moves from the unresolved ones to one of the five outcome counts. -/
theorem tally_sum (b : Batch) (o : RecordOutcome) : (b.tally o).onTime + (b.tally o).late +
    (b.tally o).failed + (b.tally o).superseded + (b.tally o).dropped =
      b.onTime + b.late + b.failed + b.superseded + b.dropped + 1 := by
  cases o <;> simp only [Batch.tally] <;> omega

/-- A batch that stays sealed under its id. -/
theorem sealed_withinRules {b b' : Batch} (h : b.WithinRules) (hs : b.isSealed = true)
    (hs' : b'.isSealed = true) (hid : b'.id = b.id) (hrecords : b'.records = b.records)
    (hsum : b'.onTime + b'.late + b'.failed + b'.superseded + b'.dropped + b'.unresolved = b'.count)
    (hcount : b'.count = b.count) (hleft : 1 ≤ b'.unresolved) : b'.WithinRules := by
  obtain ⟨-, hids, -, -, hlen, hnodup, hbooks⟩ := h
  refine ⟨fun hf => absurd hf (not_free_of_sealed hs'), fun _ => ?_,
    fun ho => absurd ho (not_opened_of_sealed hs'), fun ho => absurd ho (not_opened_of_sealed hs'),
    ?_, ?_, fun _ => ⟨hsum, ?_, hleft⟩⟩
  · rw [hid]; exact hids (not_free_of_sealed hs)
  · rw [hrecords]; exact hlen
  · rw [hrecords]; exact hnodup
  · rw [hcount]; exact (hbooks hs).2.1

theorem batchMove_withinRules {b b' : Batch} (h : b.WithinRules) (hm : BatchMove b b') :
    b'.WithinRules := by
  cases hm with
  | completed => exact empty_withinRules
  | tallied o hs hleft =>
    obtain ⟨hsum, -, hpos⟩ := h.2.2.2.2.2.2 hs
    obtain ⟨hstate, hid, hrecords, hcount, hunresolved⟩ := tally_same b o
    refine sealed_withinRules h hs ?_ hid hrecords ?_ hcount (Nat.pos_of_ne_zero hleft)
    · unfold Batch.isSealed; rw [hstate]; exact hs
    · rw [tally_sum, hunresolved, hcount]; omega
  | releasing hs =>
    obtain ⟨hsum, -, hpos⟩ := h.2.2.2.2.2.2 hs
    exact sealed_withinRules h hs rfl rfl rfl hsum rfl hpos

theorem batchMove_id {b b' : Batch} (hm : BatchMove b b') (hlive : b'.state ≠ .free) :
    b'.id = b.id ∧ b.state ≠ .free := by
  cases hm with
  | completed => exact absurd rfl hlive
  | tallied o hs => exact ⟨(tally_same b o).2.1, not_free_of_sealed hs⟩
  | releasing hs => exact ⟨rfl, not_free_of_sealed hs⟩

theorem staged_withinRules {s : State} {b b' : Batch} (h : b.WithinRules)
    (ho : b.state = .opened) (hb : StagedFrom s b b') : b'.WithinRules := by
  rcases hb.batch with rfl | e
  · exact h
  · obtain ⟨-, hids, hzero, -, hlen, hnodup, -⟩ := h
    have hstate : b'.state = .opened := by rw [e]; exact ho
    refine ⟨fun hf => ?_, fun hf => ?_, fun _ => ?_, fun _ => ?_, hb.length hlen, hb.nodup hnodup,
      fun hs => absurd hstate (not_opened_of_sealed hs)⟩
    · rw [hstate] at hf; cases hf
    · rw [e]; exact hids (by rw [ho]; simp)
    · rw [e]; exact hzero ho
    · rw [e]; rfl

/-- R47: an OPEN batch that is sealed. -/
theorem armed_withinRules {b : Batch} {t : Epoch} {slipped : Bool} (h : b.WithinRules)
    (ho : b.state = .opened) (hne : b.records ≠ []) : (b.armed t slipped).WithinRules := by
  obtain ⟨-, hids, -, -, hlen, -, -⟩ := h
  refine ⟨nofun, fun _ => hids (by rw [ho]; simp), nofun, nofun, Nat.zero_le _, List.nodup_nil,
    fun _ => ⟨?_, hlen, List.length_pos_iff.mpr hne⟩⟩
  simp [Batch.armed]

/-! ### All contexts -/

/-- R36, R37: no other context of the client is OPEN beside an OPEN one, or has the id of a live one. -/
structure FitsIn (s : State) (k : Client) (n : Fin 4) (b : Batch) : Prop where
  opened : b.state = .opened → ∀ m, m ≠ n → (s.context k m).state ≠ .opened
  id : b.state ≠ .free → ∀ m, m ≠ n → (s.context k m).state ≠ .free → (s.context k m).id ≠ b.id

theorem batches_setContext {s : State} {k : Client} {n : Fin 4} {b : Batch}
    (h : BatchesWithinRules s) (hb : b.WithinRules) (hfits : FitsIn s k n b) :
    BatchesWithinRules (s.setContext k n b) := by
  obtain ⟨hrules, hprevious, hopen, hid, hstore⟩ := h
  refine ⟨forall_setContext (p := fun _ _ => Batch.WithinRules) hrules hb, hprevious, ?_, ?_, hstore⟩
  · intro j m m' hm hm'
    rw [State.setContext_context] at hm hm'
    split at hm <;> split at hm'
    · rename_i h1 h2; exact h1.2.symm.trans h2.2
    · rename_i h1 h2
      obtain ⟨rfl, rfl⟩ := h1
      exact absurd hm' (hfits.opened hm m' fun e => h2 ⟨rfl, e.symm⟩)
    · rename_i h1 h2
      obtain ⟨rfl, rfl⟩ := h2
      exact absurd hm (hfits.opened hm' m fun e => h1 ⟨rfl, e.symm⟩)
    · exact hopen j m m' hm hm'
  · intro j m m' hm hm' heq
    rw [State.setContext_context] at hm hm' heq
    rw [State.setContext_context] at heq
    by_cases h1 : k = j ∧ n = m
    · by_cases h2 : k = j ∧ n = m'
      · exact h1.2.symm.trans h2.2
      · rw [if_pos h1] at hm heq
        rw [if_neg h2] at hm' heq
        obtain ⟨rfl, rfl⟩ := h1
        exact absurd heq.symm (hfits.id hm m' (fun e => h2 ⟨rfl, e.symm⟩) hm')
    · rw [if_neg h1] at hm heq
      by_cases h2 : k = j ∧ n = m'
      · rw [if_pos h2] at hm' heq
        obtain ⟨rfl, rfl⟩ := h2
        exact absurd heq (hfits.id hm' m (fun e => h1 ⟨rfl, e.symm⟩) hm)
      · rw [if_neg h2] at hm' heq
        exact hid j m m' hm hm' heq

/-- A batch that takes over the place and the id of a live one fits in. -/
theorem fitsIn_of_id {s : State} {k : Client} {n : Fin 4} {b : Batch} (h : BatchesWithinRules s)
    (hopen : b.state = .opened → (s.context k n).state = .opened)
    (hid : b.state ≠ .free → b.id = (s.context k n).id ∧ (s.context k n).state ≠ .free) :
    FitsIn s k n b := by
  obtain ⟨-, -, hopened, hids, -⟩ := h
  refine ⟨fun ho m hm hm' => hm (hopened k m n hm' (hopen ho)), fun hlive m hm hm' heq => ?_⟩
  obtain ⟨e, hn⟩ := hid hlive
  exact hm (hids k m n hm' hn (heq.trans e))

theorem fitsIn_empty (s : State) (k : Client) (n : Fin 4) : FitsIn s k n Batch.empty :=
  ⟨nofun, fun h => absurd rfl h⟩

theorem batches_same {s t : State} (h : BatchesWithinRules s)
    (hb : t.batches.context = s.batches.context ∧ t.batches.previousId = s.batches.previousId)
    (hstore : t.store.Sublist s.store) : BatchesWithinRules t := by
  have hcontext : ∀ k n, t.context k n = s.context k n := fun k n => by
    unfold State.context; rw [hb.1]
  obtain ⟨hrules, hprevious, hopen, hid, hpair⟩ := h
  refine ⟨fun k n => ?_, fun k => ?_, fun k m n => ?_, fun k m n => ?_, hpair.sublist hstore⟩
  · rw [hcontext]; exact hrules k n
  · unfold State.previousId; rw [hb.2]; exact hprevious k
  · rw [hcontext, hcontext]; exact hopen k m n
  · rw [hcontext, hcontext]; exact hid k m n

theorem batches_recordState {s : State} (x : PendingRecord) (st : RecordState)
    (h : BatchesWithinRules s) : BatchesWithinRules (setRecordState x st s) := by
  obtain ⟨hrules, hprevious, hopen, hid, hpair⟩ := h
  refine ⟨hrules, hprevious, hopen, hid, List.pairwise_map.mpr (hpair.imp fun {y z} hyz => ?_)⟩
  split <;> split <;> exact hyz

theorem batches_pieces (F : Frame) : PieceLaw F (fun _ => True) (fun _ => True)
    (fun s => frameOf s = F ∧ BatchesWithinRules s) where
  host _ _ h := h
  phase _ _ h := h
  pending _ _ h := h
  draws _ _ h := h
  lease _ _ h := h
  offer _ _ h := h
  batch s k n b hm h := ⟨h.1, batches_setContext h.2 (batchMove_withinRules (h.2.1 k n) hm)
    (fitsIn_of_id h.2 (fun ho => absurd ho (not_opened_of_batchMove hm)) (batchMove_id hm))⟩
  sealList _ _ h := h
  unstore _ _ h := ⟨h.1, batches_same h.2 ⟨rfl, rfl⟩ List.filter_sublist⟩
  frame _ h := h.1
  good _ _ _ _ := trivial
  goodSlot _ _ _ _ := trivial
  gen _ _ _ h := h
  primes _ _ h := h
  outputs _ _ h := h
  marks _ h := h
  probes _ _ _ h := h
  queue _ _ _ _ h := h
  write _ _ _ _ _ _ _ _ _ h := h
  prime _ _ _ _ _ _ _ _ h := h
  recordState _ _ _ h := ⟨h.1, batches_recordState _ _ h.2⟩
  applyLocal _ _ _ _ h := ⟨(frameOf_applyLocal _ _).trans h.1, h.2⟩
  complete s b e rest done _ h := by
    have hb : (completeSlot e done (s.setQueue b rest)).batches = s.batches :=
      completeSlot_batches ..
    refine ⟨(frameOf_completeSlot ..).trans h.1, batches_same h.2 ?_ ?_⟩
    · rw [hb]; exact ⟨rfl, rfl⟩
    · rw [completeSlot_store]; exact .refl _
  engine _ _ _ _ h := h
  claims _ _ _ h := h
  dropOpen s k n _ h := ⟨h.1, batches_setContext h.2 empty_withinRules (fitsIn_empty s k n)⟩

/-! ### The requests -/

theorem idAfter_bounds {id : Nat} : 1 ≤ idAfter id ∧ idAfter id ≤ 255 := by
  unfold idAfter
  split <;> omega

theorem freshId_bounds (s : State) (k : Client) (tries id : Nat) :
    1 ≤ s.freshId k tries id ∧ s.freshId k tries id ≤ 255 := by
  induction tries generalizing id with
  | zero => exact idAfter_bounds
  | succ tries ih =>
    unfold State.freshId
    split
    · exact ih _
    · exact idAfter_bounds

/-- R37: the id that OPEN takes is no live batch's. -/
theorem freshId_not_live {s : State} {k : Client} {n : Fin 4}
    (hfree : (s.context k n).state = .free) :
    s.idLive k (s.freshId k 3 (s.previousId k)) = false := by
  classical
  have hex := BatchRequests.exists_freshIterate hfree
  obtain ⟨hj, hfresh⟩ := Nat.find_spec hex
  have hlive : ∀ i < Nat.find hex, s.idLive k (idAfter^[i + 1] (s.previousId k)) = true := by
    intro i hi
    have := Nat.find_min hex hi
    simpa [show i < 4 by omega] using this
  rw [BatchRequests.freshId_eq (Nat.le_of_lt_succ hj) hfresh hlive]
  exact hfresh

theorem opened_withinRules {id : Nat} {kind : TargetKind} {epoch : Epoch} {policy : Policy}
    (h : 1 ≤ id ∧ id ≤ 255) : ({ Batch.empty with
      state := .opened, id := id, kind := kind, epoch := epoch, policy := policy } :
        Batch).WithinRules :=
  ⟨nofun, fun _ => h, fun _ => ⟨rfl, rfl, rfl, rfl, rfl, rfl, rfl, rfl, rfl⟩, fun _ => rfl,
    Nat.zero_le _, List.nodup_nil, nofun⟩

/-- R47: the records that a SEAL appends have the slots of the list, in its order. -/
theorem sealed_distinct {s : State} {r : BatchRef} {t : Epoch} {l : List Staged}
    (hnodup : (l.map (·.slot)).Nodup) :
    (pendingList s r t 1 l).Pairwise (fun x y => x.slot ≠ y.slot ∨ x.target ≠ y.target) := by
  have hslots : (pendingList s r t 1 l).map (·.slot) = l.map (·.slot) := by
    rw [BatchRequests.pendingList_eq]
    exact List.ext_getElem (by simp) fun i _ _ => by simp; rfl
  rw [← hslots] at hnodup
  exact (List.pairwise_map.mp hnodup).imp .inl

theorem batches_requests : RequestLaw BatchesWithinRules where
  defineSlot _ _ _ _ _ _ _ _ _ _ _ _ _ _ _ _ h := h
  undefineSlot _ _ _ _ _ _ h := h
  claim _ _ _ h := h
  token _ _ h := h
  setLease _ _ _ _ h := h
  openBatch s k n id b hnone hfree hid _ hb h := by
    have hbounds := freshId_bounds s k 3 (s.previousId k)
    have hlive := freshId_not_live hfree
    rw [← hid] at hbounds hlive
    have hrules : b.WithinRules := by rw [hb]; exact opened_withinRules hbounds
    have hbid : b.id = id := by rw [hb]
    have hset : BatchesWithinRules (s.setContext k n b) := by
      refine batches_setContext h hrules ⟨fun _ m _ => Requests.openContext_eq_none.mp hnone m,
        fun _ m _ hm heq => ?_⟩
      rw [BatchRequests.idLive_iff.mpr ⟨m, hm, heq.trans hbid⟩] at hlive
      cases hlive
    obtain ⟨h1, h2, h3, h4, h5⟩ := hset
    refine ⟨h1, fun j => ?_, h3, h4, h5⟩
    rw [State.setPreviousId_previousId]
    split
    · exact hbounds.2
    · exact h2 j
  restaged s k n b ho hb h := by
    have hsame : b.state = (s.context k n).state ∧ b.id = (s.context k n).id := by
      rcases hb.batch with e | e <;> rw [e] <;> exact ⟨rfl, rfl⟩
    refine batches_setContext h (staged_withinRules (h.1 k n) ho hb)
      (fitsIn_of_id h (fun _ => ho) fun hf => ⟨hsame.2, hsame.1 ▸ hf⟩)
  sealBatch s k n t slipped ho hne _ hclear _ h := by
    have harmed := batches_setContext h (armed_withinRules (t := t) (slipped := slipped)
      (h.1 k n) ho hne) (fitsIn_of_id h nofun fun _ => ⟨rfl, by rw [ho]; simp⟩)
    obtain ⟨h1, h2, h3, h4, h5⟩ := harmed
    refine ⟨h1, h2, h3, h4, List.pairwise_append.mpr
      ⟨h5, sealed_distinct (h.1 k n).2.2.2.2.2.1, fun y hy x hx => ?_⟩⟩
    rw [BatchRequests.pendingList_eq] at hx
    obtain ⟨p, hp, rfl⟩ := List.mem_mapIdx.mp hx
    exact or_iff_not_imp_left.mpr fun hslot =>
      hclear _ (List.getElem_mem hp) y hy (not_not.mp hslot)
  setGeometry _ _ _ _ _ _ _ _ h := h
  defineDevice _ _ _ _ _ _ h := h
  busSpeed _ _ _ h := h
  fetch _ _ _ h := h
  subscribe _ _ _ _ _ h := h
  detachEvents _ _ h := h

theorem reset_batches : BatchesWithinRules State.reset := by
  have hprevious : ∀ k, State.reset.previousId k = 0 := fun k => Vector.getElem_replicate ..
  refine ⟨fun k n => ?_, fun k => ?_, fun k m n hm => ?_, fun k m n hm => ?_, .nil⟩
  · rw [reset_context]; exact empty_withinRules
  · rw [hprevious]; exact Nat.zero_le _
  · rw [reset_context] at hm; cases hm
  · rw [reset_context] at hm; exact absurd rfl hm

/-- Settles O56: the law of the batches by its pieces. -/
theorem everyStepKeepsBatches : Obligations.EveryStepKeepsBatches :=
  kept_of_pieces batches_pieces batches_requests
    { now := fun _ _ _ _ _ _ _ _ _ _ _ _ h => h, probe := fun _ _ _ _ _ _ _ _ _ _ _ h => h }
    reset_batches

end Sys2Proof.Books
end


section
/-! PROOFS. Laws put together, and the classes of the slots with a sealed or staged change (R2). -/

set_option Elab.async false

namespace Sys2Proof.LawPairs

open Sys2Proof Sys2Proof.Machine Sys2Proof.Commands Sys2Proof.Rules Sys2Proof.Effects
open Sys2Proof.Schedule Sys2Proof.Carrying Sys2Proof.Pieces Sys2Proof.PieceRequests
open Sys2Proof.TableLaws Sys2Proof.TableContents Sys2Proof.Books

/-! ### Two laws together -/

section
variable {F : Frame} {G1 G2 : PendingRecord → Prop} {S1 S2 : SlotNo → Prop} {I1 I2 : State → Prop}

/-- What two laws keep on a move each, they keep together. -/
theorem both {s t : State} (f1 : frameOf s = F ∧ I1 s → frameOf t = F ∧ I1 t)
    (f2 : frameOf s = F ∧ I2 s → frameOf t = F ∧ I2 t) (h : frameOf s = F ∧ I1 s ∧ I2 s) :
    frameOf t = F ∧ I1 t ∧ I2 t :=
  ⟨(f1 ⟨h.1, h.2.1⟩).1, (f1 ⟨h.1, h.2.1⟩).2, (f2 ⟨h.1, h.2.2⟩).2⟩

theorem pieces_and (L1 : PieceLaw F G1 S1 (fun s => frameOf s = F ∧ I1 s))
    (L2 : PieceLaw F G2 S2 (fun s => frameOf s = F ∧ I2 s)) :
    PieceLaw F (fun x => G1 x ∧ G2 x) (fun i => S1 i ∧ S2 i)
      (fun s => frameOf s = F ∧ I1 s ∧ I2 s) where
  host s g := both (L1.host s g) (L2.host s g)
  phase s p := both (L1.phase s p) (L2.phase s p)
  pending s l := both (L1.pending s l) (L2.pending s l)
  draws s n := both (L1.draws s n) (L2.draws s n)
  lease s k := both (L1.lease s k) (L2.lease s k)
  offer s o := both (L1.offer s o) (L2.offer s o)
  batch s k n b hm := both (L1.batch s k n b hm) (L2.batch s k n b hm)
  sealList s l := both (L1.sealList s l) (L2.sealList s l)
  unstore s p := both (L1.unstore s p) (L2.unstore s p)
  frame _ h := h.1
  good s x h hx := ⟨L1.good s x ⟨h.1, h.2.1⟩ hx, L2.good s x ⟨h.1, h.2.2⟩ hx⟩
  goodSlot s i h hi := ⟨L1.goodSlot s i ⟨h.1, h.2.1⟩ hi, L2.goodSlot s i ⟨h.1, h.2.2⟩ hi⟩
  gen s g hg := both (L1.gen s g hg) (L2.gen s g hg)
  primes s hr := both (L1.primes s hr) (L2.primes s hr)
  outputs s v := both (L1.outputs s v) (L2.outputs s v)
  marks s := both (L1.marks s) (L2.marks s)
  probes s k n := both (L1.probes s k n) (L2.probes s k n)
  queue s b q hq := both (L1.queue s b q hq) (L2.queue s b q hq)
  write s b x d late hx hd hb hroom :=
    both (L1.write s b x d late hx.1 hd hb hroom) (L2.write s b x d late hx.2 hd hb hroom)
  prime s b i d hi hd hb hroom :=
    both (L1.prime s b i d hi.1 hd hb hroom) (L2.prime s b i d hi.2 hd hb hroom)
  recordState s x st := both (L1.recordState s x st) (L2.recordState s x st)
  applyLocal s x hx hd := both (L1.applyLocal s x hx.1 hd) (L2.applyLocal s x hx.2 hd)
  complete s b e rest done hq := both (L1.complete s b e rest done hq) (L2.complete s b e rest done hq)
  engine s b e he := both (L1.engine s b e he) (L2.engine s b e he)
  claims s c hc := both (L1.claims s c hc) (L2.claims s c hc)
  dropOpen s k n hn := both (L1.dropOpen s k n hn) (L2.dropOpen s k n hn)

theorem requests_and (R1 : RequestLaw I1) (R2 : RequestLaw I2) :
    RequestLaw (fun s => I1 s ∧ I2 s) where
  defineSlot s i d r device format kind min max initial h1 h2 h3 h4 h5 h6 :=
    And.imp (R1.defineSlot s i d r device format kind min max initial h1 h2 h3 h4 h5 h6)
      (R2.defineSlot s i d r device format kind min max initial h1 h2 h3 h4 h5 h6)
  undefineSlot s i h1 h2 h3 h4 := And.imp (R1.undefineSlot s i h1 h2 h3 h4)
    (R2.undefineSlot s i h1 h2 h3 h4)
  claim s o h1 := And.imp (R1.claim s o h1) (R2.claim s o h1)
  token s t := And.imp (R1.token s t) (R2.token s t)
  setLease s k n h1 := And.imp (R1.setLease s k n h1) (R2.setLease s k n h1)
  openBatch s k n id b h1 h2 h3 h4 h5 := And.imp (R1.openBatch s k n id b h1 h2 h3 h4 h5)
    (R2.openBatch s k n id b h1 h2 h3 h4 h5)
  restaged s k n b h1 h2 := And.imp (R1.restaged s k n b h1 h2) (R2.restaged s k n b h1 h2)
  sealBatch s k n t slipped h1 h2 h3 h4 h5 :=
    And.imp (R1.sealBatch s k n t slipped h1 h2 h3 h4 h5) (R2.sealBatch s k n t slipped h1 h2 h3 h4 h5)
  setGeometry s a b c d e h1 h2 := And.imp (R1.setGeometry s a b c d e h1 h2)
    (R2.setGeometry s a b c d e h1 h2)
  defineDevice s d r h1 h2 h3 := And.imp (R1.defineDevice s d r h1 h2 h3)
    (R2.defineDevice s d r h1 h2 h3)
  busSpeed s b v := And.imp (R1.busSpeed s b v) (R2.busSpeed s b v)
  fetch s k n := And.imp (R1.fetch s k n) (R2.fetch s k n)
  subscribe s k set divider h1 := And.imp (R1.subscribe s k set divider h1)
    (R2.subscribe s k set divider h1)
  detachEvents s k := And.imp (R1.detachEvents s k) (R2.detachEvents s k)

theorem entries_and (N1 : EntryLaw I1) (N2 : EntryLaw I2) : EntryLaw (fun s => I1 s ∧ I2 s) where
  now s b i d v k tag h1 h2 h3 h4 h5 := And.imp (N1.now s b i d v k tag h1 h2 h3 h4 h5)
    (N2.now s b i d v k tag h1 h2 h3 h4 h5)
  probe s b d k tag register width order h1 h2 h3 :=
    And.imp (N1.probe s b d k tag register width order h1 h2 h3)
      (N2.probe s b d k tag register width order h1 h2 h3)

end

/-! ### The classes of slots with a sealed or staged change (R2) -/

/-- R2: by the frame, the class of every staged record's slot. -/
def BatchEpoch (F : Frame) (b : Batch) : Prop :=
  b.state = .opened → ∀ x ∈ b.records, (F.slot x.slot).defined = true →
    (F.slot x.slot).cls = .epoch

/-- R2: the slots with a pending or a staged record are EPOCH slots, unless undefined since. -/
def Classes (s : State) : Prop :=
  (∀ x ∈ s.store, (s.slot x.slot).cls = .epoch) ∧
    ∀ (k : Client) (n : Fin 4), BatchEpoch (frameOf s) (s.context k n)

theorem classes_same {s t : State} (h : Classes s) (hf : frameOf t = frameOf s)
    (hstore : ∀ x ∈ t.store, ∃ y ∈ s.store, y.slot = x.slot)
    (hb : ∀ k n, BatchEpoch (frameOf s) (t.context k n)) : Classes t := by
  refine ⟨fun x hx => ?_, fun k n => hf ▸ hb k n⟩
  obtain ⟨y, hy, hslot⟩ := hstore x hx
  have hcls : (t.slot x.slot).cls = (s.slot x.slot).cls :=
    congrArg (fun F : Frame => (F.slot x.slot).cls) hf
  rw [hcls, ← hslot]
  exact h.1 y hy

theorem classes_setContext {s : State} {k : Client} {n : Fin 4} {b : Batch} (h : Classes s)
    (hb : BatchEpoch (frameOf s) b) : Classes (s.setContext k n b) :=
  ⟨h.1, forall_setContext (p := fun _ _ => BatchEpoch (frameOf s)) h.2 hb⟩

theorem classes_pieces (F : Frame) : PieceLaw F (fun _ => True) (fun _ => True)
    (fun s => frameOf s = F ∧ Classes s) where
  host _ _ h := h
  phase _ _ h := h
  pending _ _ h := h
  draws _ _ h := h
  lease _ _ h := h
  offer _ _ h := h
  batch _ _ _ _ hm h :=
    ⟨h.1, classes_setContext h.2 fun ho => absurd ho (not_opened_of_batchMove hm)⟩
  sealList _ _ h := h
  unstore _ _ h := ⟨h.1, classes_same h.2 rfl (fun x hx => ⟨x, List.mem_of_mem_filter hx, rfl⟩)
    h.2.2⟩
  frame _ h := h.1
  good _ _ _ _ := trivial
  goodSlot _ _ _ _ := trivial
  gen _ _ _ h := h
  primes _ _ h := h
  outputs _ _ h := h
  marks _ h := h
  probes _ _ _ h := h
  queue _ _ _ _ h := h
  write _ _ _ _ _ _ _ _ _ h := h
  prime _ _ _ _ _ _ _ _ h := h
  recordState s x st h := by
    refine ⟨h.1, classes_same h.2 rfl (fun y hy => ?_) h.2.2⟩
    obtain ⟨z, hz, rfl⟩ := List.mem_map.mp hy
    exact ⟨z, hz, by split <;> rfl⟩
  applyLocal _ _ _ _ h := ⟨(frameOf_applyLocal _ _).trans h.1,
    classes_same h.2 (frameOf_applyLocal _ _) (fun x hx => ⟨x, hx, rfl⟩) h.2.2⟩
  complete s b e rest done _ h := by
    have hf : frameOf (completeSlot e done (s.setQueue b rest)) = frameOf s :=
      frameOf_completeSlot ..
    refine ⟨hf.trans h.1, classes_same h.2 hf (fun x hx => ⟨x, ?_, rfl⟩) fun k n => ?_⟩
    · rwa [completeSlot_store] at hx
    · unfold State.context
      rw [completeSlot_batches]
      exact h.2.2 k n
  engine _ _ _ _ h := h
  claims _ _ _ h := h
  dropOpen _ _ _ _ h := ⟨h.1, classes_setContext h.2 nofun⟩

/-- A slot's record is written while the slot has no pending record, and no staged one unless it
becomes undefined. -/
theorem classes_setSlot {s : State} {i : SlotNo} {r : Slot} (h : Classes s)
    (hp : s.pendingCount i = 0) (hstaged : r.defined = true → s.isStaged i = false) :
    Classes (s.setSlot i r) := by
  have hother : ∀ j, j ≠ i → (s.setSlot i r).slot j = s.slot j := fun j hj =>
    (State.setSlot_slot ..).trans (if_neg (Ne.symm hj))
  refine ⟨fun x hx => ?_, fun k n ho x hx hd => ?_⟩
  · rw [hother]
    · exact h.1 x hx
    · exact fun hi => List.countP_eq_zero.mp hp x hx (by simp [hi])
  · change ((s.setSlot i r).slot x.slot).cls = .epoch
    change ((s.setSlot i r).slot x.slot).defined = true at hd
    by_cases hxi : x.slot = i
    · rw [hxi, State.setSlot_slot, if_pos rfl] at hd
      have hfound : s.isStaged x.slot = true := isStaged_of_record ho hx
      rw [hxi, hstaged hd] at hfound
      cases hfound
    · rw [hother _ hxi] at hd ⊢
      exact h.2 k n ho x hx hd

theorem classes_requests : RequestLaw Classes where
  defineSlot _ _ _ _ _ _ _ _ _ _ _ _ hbusy _ _ _ h := by
    obtain ⟨hp, -, hstaged⟩ := counts_of_not_busy hbusy
    exact classes_setSlot h hp fun _ => hstaged
  undefineSlot _ _ _ _ hp _ h := classes_setSlot h hp nofun
  claim _ _ _ h := h
  token _ _ h := h
  setLease _ _ _ _ h := h
  openBatch s k n id b _ _ _ hempty _ h :=
    classes_setContext h fun _ x hx => by rw [hempty] at hx; cases hx
  restaged s k n b ho hb h := by
    refine classes_setContext h fun _ x hx hd => ?_
    rcases hb.records x hx with hold | hnew
    · exact h.2 k n ho x hold hd
    · exact hnew.2.1
  sealBatch s k n t slipped ho _ hd _ _ h := by
    refine ⟨fun x hx => ?_,
      forall_setContext (p := fun _ _ => BatchEpoch (frameOf s)) (s := s) h.2 nofun⟩
    change x ∈ s.store ++ _ at hx
    rw [BatchRequests.pendingList_eq] at hx
    rcases List.mem_append.mp hx with hx | hx
    · exact h.1 x hx
    · obtain ⟨p, hp, rfl⟩ := List.mem_mapIdx.mp hx
      exact h.2 k n ho _ (List.getElem_mem hp) (hd _ (List.getElem_mem hp))
  setGeometry _ _ _ _ _ _ _ _ h := h
  defineDevice _ _ _ _ _ _ h := h
  busSpeed _ _ _ h := h
  fetch _ _ _ h := h
  subscribe _ _ _ _ _ h := h
  detachEvents _ _ h := h

/-! ### What the law of the queues rests on -/

/-- The books, the references and the classes. -/
abbrev Grounds (s : State) : Prop := BatchesWithinRules s ∧ NothingDangles s ∧ Classes s

theorem grounds_pieces (F : Frame) : PieceLaw F
    (fun x => True ∧ (F.slot x.slot).defined = true ∧ True)
    (fun i => True ∧ (F.slot i).defined = true ∧ True) (fun s => frameOf s = F ∧ Grounds s) :=
  pieces_and (batches_pieces F) (pieces_and (dangles_pieces F) (classes_pieces F))

theorem grounds_requests : RequestLaw Grounds :=
  requests_and batches_requests (requests_and dangles_requests classes_requests)

theorem grounds_entries : EntryLaw Grounds :=
  entries_and { now := fun _ _ _ _ _ _ _ _ _ _ _ _ h => h,
                probe := fun _ _ _ _ _ _ _ _ _ _ _ h => h }
    (entries_and dangles_entries { now := fun _ _ _ _ _ _ _ _ _ _ _ _ h => h,
                                   probe := fun _ _ _ _ _ _ _ _ _ _ _ h => h })

end Sys2Proof.LawPairs
end


section
/-! PROOFS. The law of the queues (R72, R73, R109): one waiting change for a slot, and deferred records
behind a full queue alone. Where a place has been freed and is not yet filled, the last part is
suspended for that bus. -/

set_option Elab.async false

namespace Sys2Proof.QueueLaw

open Sys2Proof Sys2Proof.Machine Sys2Proof.Commands Sys2Proof.Rules Sys2Proof.Effects
open Sys2Proof.Schedule Sys2Proof.Carrying Sys2Proof.Leases Sys2Proof.Pieces
open Sys2Proof.PieceRequests Sys2Proof.TableLaws Sys2Proof.TableContents Sys2Proof.LawPairs

/-- The law of the queues, with deferred records behind a queue that is not full on the buses of `E`. -/
structure Lined (E : BusNo → Prop) (s : State) : Prop where
  one : ∀ (b : BusNo) (i : SlotNo), (s.queue b).countP (·.waitsFor i) ≤ 1
  deferred : ∀ i : SlotNo, s.store.countP (fun x => x.slot == i && x.state == .deferred) ≤ 1
  apart : ∀ x ∈ s.store, x.state = .deferred → ∀ b : BusNo,
    (s.queue b).countP (·.waitsFor x.slot) = 0
  full : ∀ b : BusNo, ¬ E b → ∀ x ∈ s.store, x.state = .deferred → s.slotBus x.slot = some b →
    32 ≤ (s.queue b).length

theorem waitsFor_iff {e : Entry} {i : SlotNo} : e.waitsFor i = true ↔
    e.onBus = false ∧ (e.kind = .write ∨ e.kind = .now) ∧ e.slot = some i := by
  simp [Entry.waitsFor, and_assoc]

theorem mem_deferredSet {s : State} {b : BusNo} {x : PendingRecord} : x ∈ s.deferredSet b ↔
    x ∈ s.store ∧ x.state = .deferred ∧ s.slotBus x.slot = some b := by
  simp [State.deferredSet]

/-- The law as the obligation words it. -/
theorem queuesWithinRules_iff {s : State} :
    QueuesWithinRules s ↔ Classes s ∧ Lined (fun _ => False) s := by
  constructor
  · rintro ⟨hone, hdeferred, hapart, hfull, hstore, hbatch⟩
    refine ⟨⟨hstore, hbatch⟩, hone, hdeferred, fun x hx hd b => ?_, fun b _ x hx hd hb => ?_⟩
    · refine List.countP_eq_zero.mpr fun e he hw => ?_
      obtain ⟨hon, hkind, hslot⟩ := waitsFor_iff.mp hw
      exact hapart x hx hd b e he hon hkind hslot
    · exact hfull b (List.ne_nil_of_mem (mem_deferredSet.mpr ⟨hx, hd, hb⟩))
  · rintro ⟨⟨hstore, hbatch⟩, hone, hdeferred, hapart, hfull⟩
    refine ⟨hone, hdeferred, fun x hx hd b e he hon hkind hslot => ?_, fun b hne => ?_, hstore,
      hbatch⟩
    · exact List.countP_eq_zero.mp (hapart x hx hd b) e he (waitsFor_iff.mpr ⟨hon, hkind, hslot⟩)
    · obtain ⟨x, hx⟩ := List.exists_mem_of_ne_nil _ hne
      obtain ⟨hstored, hd, hb⟩ := mem_deferredSet.mp hx
      exact hfull b id x hstored hd hb

/-! ### The deferred records of a store -/

/-- The deferred records of `l'` are some of those of `l`, in their order. -/
abbrev FewerDeferred (l l' : List PendingRecord) : Prop :=
  (l'.filter (·.state == .deferred)).Sublist (l.filter (·.state == .deferred))

theorem fewerDeferred_sublist {l l' : List PendingRecord} (h : l'.Sublist l) :
    FewerDeferred l l' := h.filter _

theorem FewerDeferred.mem {l l' : List PendingRecord} (h : FewerDeferred l l')
    {x : PendingRecord} (hx : x ∈ l') (hd : x.state = .deferred) : x ∈ l :=
  List.mem_of_mem_filter (h.subset (List.mem_filter.mpr ⟨hx, by simp [hd]⟩))

theorem FewerDeferred.countP {l l' : List PendingRecord} (h : FewerDeferred l l') (i : SlotNo) :
    l'.countP (fun x => x.slot == i && x.state == .deferred) ≤
      l.countP (fun x => x.slot == i && x.state == .deferred) := by
  rw [← List.countP_filter, ← List.countP_filter]
  exact h.countP_le

/-- R68: records that are RELEASED leave the deferred set. -/
theorem fewerDeferred_released (p : PendingRecord → Bool) (l : List PendingRecord) :
    FewerDeferred l (l.map (fun y => if p y then { y with state := .released } else y)) := by
  induction l with
  | nil => exact .slnil
  | cons y l ih =>
    unfold FewerDeferred at ih ⊢
    rw [List.map_cons]
    split
    · rw [List.filter_cons_of_neg (by simp)]
      exact ih.trans ((List.sublist_cons_self y l).filter _)
    · by_cases hd : (y.state == .deferred) = true
      · simp only [List.filter_cons, hd, if_true]
        exact ih.cons_cons y
      · simp only [List.filter_cons, hd]
        exact ih

/-- R47: records that wait are not deferred. -/
theorem fewerDeferred_append {l new : List PendingRecord} (h : ∀ x ∈ new, x.state = .waiting) :
    FewerDeferred l (l ++ new) := by
  have hnone : new.filter (·.state == .deferred) = [] :=
    List.filter_eq_nil_iff.mpr fun x hx => by simp [h x hx]
  unfold FewerDeferred
  rw [List.filter_append, hnone, List.append_nil]

theorem same_slot_target {x y : PendingRecord} (h : x.sameAs y = true) :
    y.slot = x.slot ∧ y.target = x.target := by
  have e := (PendingRecord.sameAs_iff x y).mp h
  exact ⟨congrArg (fun z => z.slot) e, congrArg (fun z => z.target) e⟩

/-- R64: one record of a store at most has the slot and the target of `x`. -/
theorem countP_sameAs_le_one (x : PendingRecord) {l : List PendingRecord}
    (h : l.Pairwise (fun x y => x.slot ≠ y.slot ∨ x.target ≠ y.target)) :
    l.countP (x.sameAs ·) ≤ 1 := by
  induction h with
  | nil => exact Nat.zero_le _
  | @cons y l hy _ ih =>
    by_cases hsame : x.sameAs y = true
    · rw [List.countP_cons_of_pos hsame]
      refine Nat.succ_le_succ (Nat.le_of_eq (List.countP_eq_zero.mpr fun z hz hz' => ?_))
      obtain ⟨hs, ht⟩ := same_slot_target hsame
      obtain ⟨hs', ht'⟩ := same_slot_target hz'
      rcases hy z hz with hne | hne
      · exact hne (hs.trans hs'.symm)
      · exact hne (ht.trans ht'.symm)
    · rw [List.countP_cons_of_neg hsame]
      exact ih

/-! ### What only removes -/

section
variable {E E' : BusNo → Prop} {s t : State}

/-- Deferred records and waiting entries may leave; a queue gets shorter only where the law is
suspended. -/
theorem lined_of (h : Lined E s) (hstore : FewerDeferred s.store t.store)
    (hbus : ∀ x ∈ s.store, x.state = .deferred → t.slotBus x.slot = s.slotBus x.slot)
    (hcount : ∀ (b : BusNo) (i : SlotNo),
      (t.queue b).countP (·.waitsFor i) ≤ (s.queue b).countP (·.waitsFor i))
    (hlen : ∀ b : BusNo, ¬ E' b → ¬ E b ∧ (s.queue b).length ≤ (t.queue b).length) :
    Lined E' t where
  one b i := (hcount b i).trans (h.one b i)
  deferred i := (hstore.countP i).trans (h.deferred i)
  apart x hx hd b :=
    Nat.le_zero.mp ((hcount b x.slot).trans (h.apart x (hstore.mem hx hd) hd b).le)
  full b hb x hx hd hxb := by
    have hx' := hstore.mem hx hd
    obtain ⟨hb', hle⟩ := hlen b hb
    exact (h.full b hb' x hx' hd (hbus x hx' hd ▸ hxb)).trans hle

theorem lined_same (h : Lined E s) (hstore : FewerDeferred s.store t.store)
    (hf : frameOf t = frameOf s) (hq : ∀ b, t.queue b = s.queue b) : Lined E t := by
  refine lined_of h hstore (fun x _ _ => ?_) (fun b i => ?_) fun b hb => ⟨hb, ?_⟩
  · exact congrArg (fun F : Frame => F.bus x.slot) hf
  · rw [hq]
  · rw [hq]

theorem lined_mono (h : Lined E s) (hE : ∀ b, E b → E' b) : Lined E' s :=
  ⟨h.one, h.deferred, h.apart, fun b hb => h.full b fun he => hb (hE b he)⟩

/-- A queue loses waiting entries: the law is suspended for its bus. -/
theorem lined_setQueue {b : BusNo} {q : List Entry} (h : Lined E s)
    (hq : ∀ i, q.countP (·.waitsFor i) ≤ (s.queue b).countP (·.waitsFor i)) :
    Lined (fun c => E c ∨ c = b) (s.setQueue b q) := by
  refine lined_of h (.refl _) (fun _ _ _ => rfl) (fun c i => ?_) fun c hc => ?_
  · rw [State.setQueue_queue]
    split
    · rename_i hbc; subst hbc; exact hq i
    · exact Nat.le_refl _
  · rw [not_or] at hc
    rw [State.setQueue_queue, if_neg (Ne.symm hc.2)]
    exact ⟨hc.1, Nat.le_refl _⟩

/-- A queue of the same or a greater length. -/
theorem lined_setQueue_long {b : BusNo} {q : List Entry} (h : Lined E s)
    (hq : ∀ i, q.countP (·.waitsFor i) ≤ (s.queue b).countP (·.waitsFor i))
    (hlen : (s.queue b).length ≤ q.length) : Lined E (s.setQueue b q) := by
  refine lined_of h (.refl _) (fun _ _ _ => rfl) (fun c i => ?_) fun c hc => ⟨hc, ?_⟩
  · rw [State.setQueue_queue]
    split
    · rename_i hbc; subst hbc; exact hq i
    · exact Nat.le_refl _
  · rw [State.setQueue_queue]
    split
    · rename_i hbc; subst hbc; exact hlen
    · exact Nat.le_refl _

end

theorem countP_map_le {q l : List Entry} {f : Entry → Entry} {i : SlotNo} (hl : l.Sublist q)
    (hf : ∀ e ∈ l, (f e).waitsFor i = true → e.waitsFor i = true) :
    (l.map f).countP (·.waitsFor i) ≤ q.countP (·.waitsFor i) := by
  rw [List.countP_map]
  exact (List.countP_mono_left hf).trans hl.countP_le

theorem waitsFor_append_other {q : List Entry} {e : Entry} {i : SlotNo}
    (h : e.waitsFor i = false) :
    (q ++ [e]).countP (·.waitsFor i) = q.countP (·.waitsFor i) := by
  rw [List.countP_append, List.countP_singleton, h]
  rfl

/-! ### What enters -/

section
variable {E : BusNo → Prop} {s : State} {b : BusNo}

/-- An entry joins the queue for a slot that has no other waiting change; the place that it takes may be
the one that suspended the law. -/
theorem lined_enter {e : Entry} {i : SlotNo} (h : Lined (fun c => E c ∨ c = b) s)
    (hslot : e.slot = some i) (hclear : (s.queue b).countP (·.waitsFor i) = 0)
    (hdeferred : ∀ x ∈ s.store, x.state = .deferred → x.slot ≠ i)
    (hshort : ∀ x ∈ s.store, x.state = .deferred → s.slotBus x.slot = some b →
      31 ≤ (s.queue b).length) : Lined E (s.setQueue b (s.queue b ++ [e])) := by
  have hother : ∀ j, j ≠ i → e.waitsFor j = false := fun j hj => by
    simp [Entry.waitsFor, hslot, Ne.symm hj]
  refine ⟨fun c j => ?_, h.deferred, fun x hx hd c => ?_, fun c hc x hx hd hxc => ?_⟩
  · rw [State.setQueue_queue]
    split
    · by_cases hji : j = i
      · subst hji
        rw [List.countP_append, hclear, Nat.zero_add]
        exact List.countP_le_length
      · rw [waitsFor_append_other (hother j hji)]
        exact h.one b j
    · exact h.one c j
  · rw [State.setQueue_queue]
    split
    · rw [waitsFor_append_other (hother _ (hdeferred x hx hd))]
      exact h.apart x hx hd b
    · exact h.apart x hx hd c
  · rw [State.setQueue_queue]
    split
    · rename_i hbc
      subst hbc
      rw [List.length_append]
      exact Nat.succ_le_succ (hshort x hx hd hxc)
    · rename_i hbc
      exact h.full c (fun hc' => hc'.elim hc fun e => hbc e.symm) x hx hd hxc

/-- R72: a record is deferred for a slot without another waiting change, behind a full queue. -/
theorem lined_defer {x : PendingRecord} (h : Lined (fun c => E c ∨ c = b) s)
    (hdistinct : s.store.Pairwise (fun x y => x.slot ≠ y.slot ∨ x.target ≠ y.target))
    (hclear : ∀ c : BusNo, (s.queue c).countP (·.waitsFor x.slot) = 0)
    (hdeferred : ∀ y ∈ s.store, y.state = .deferred → y.slot ≠ x.slot)
    (hbus : s.slotBus x.slot = some b) (hfull : 32 ≤ (s.queue b).length) :
    Lined E (setRecordState x .deferred s) := by
  have hmem : ∀ y ∈ (setRecordState x .deferred s).store, y.state = .deferred →
      y.slot = x.slot ∨ y ∈ s.store := fun y hy _ => by
    obtain ⟨z, hz, rfl⟩ := List.mem_map.mp hy
    split
    · rename_i hsame
      exact .inl (same_slot_target hsame).1
    · exact .inr hz
  refine ⟨h.one, fun i => ?_, fun y hy hd c => ?_, fun c hc y hy hd hyc => ?_⟩
  · change (s.store.map _).countP _ ≤ 1
    rw [List.countP_map]
    by_cases hi : i = x.slot
    · refine (List.countP_mono_left fun y hy hyd => ?_).trans (countP_sameAs_le_one x hdistinct)
      by_contra hne
      simp only [Function.comp_apply, hne] at hyd
      simp only [Bool.and_eq_true, beq_iff_eq] at hyd
      exact hdeferred y hy hyd.2 (hyd.1.trans hi)
    · refine (List.countP_mono_left fun y hy hyd => ?_).trans (h.deferred i)
      by_cases hsame : x.sameAs y = true
      · simp only [Function.comp_apply, hsame, if_true, Bool.and_eq_true, beq_iff_eq] at hyd
        exact absurd (hyd.1.symm.trans (same_slot_target hsame).1) hi
      · simpa only [Function.comp_apply, if_neg hsame] using hyd
  · rcases hmem y hy hd with e | hold
    · rw [e]; exact hclear c
    · exact h.apart y hold hd c
  · by_cases hcb : c = b
    · subst hcb; exact hfull
    · rcases hmem y hy hd with e | hold
      · have hyc' : s.slotBus y.slot = some c := hyc
        rw [e, hbus] at hyc'
        exact absurd (Option.some.inj hyc').symm hcb
      · exact h.full c (fun hc' => hc'.elim hc hcb) y hold hd hyc

end

/-! ### Refill (R73) -/

theorem countP_deferredSet_le {s : State} {b : BusNo} {i : SlotNo} :
    (s.deferredSet b).countP (·.slot == i) ≤
      s.store.countP (fun x => x.slot == i && x.state == .deferred) := by
  unfold State.deferredSet
  rw [List.countP_filter]
  refine List.countP_mono_left fun x _ hx => ?_
  simp only [Bool.and_eq_true] at hx ⊢
  exact ⟨hx.1, hx.2.1⟩

/-- Of two deferred records for one slot, both are the same. -/
theorem Lined.deferred_unique {E : BusNo → Prop} {s : State} (h : Lined E s)
    {x y : PendingRecord} (hx : x ∈ s.store) (hy : y ∈ s.store) (hxd : x.state = .deferred)
    (hyd : y.state = .deferred) (hslot : y.slot = x.slot) : y = x := by
  have hone := h.deferred x.slot
  rw [List.countP_eq_length_filter] at hone
  have hmem : ∀ z ∈ s.store, z.state = .deferred → z.slot = x.slot →
      z ∈ s.store.filter (fun z => z.slot == x.slot && z.state == .deferred) :=
    fun z hz hd he => List.mem_filter.mpr ⟨hz, by simp [hd, he]⟩
  generalize s.store.filter _ = l at hone hmem
  match l, hone with
  | [], _ => cases hmem x hx hxd rfl
  | [z], _ =>
    exact (List.mem_singleton.mp (hmem y hy hyd hslot)).trans
      (List.mem_singleton.mp (hmem x hx hxd rfl)).symm

theorem refillEntry_waitsFor (s : State) (x : PendingRecord) (i : SlotNo) :
    (refillEntryFor s x).waitsFor i = (x.slot == i) := by
  simp [refillEntryFor, writeEntryFor, Entry.waitsFor]

theorem frameOf_refill (b : BusNo) (s : State) : frameOf (refill b s) = frameOf s := by
  unfold frameOf State.slot
  rw [refill_slots, refill_buses]

theorem lined_refill {E : BusNo → Prop} {s : State} (b : BusNo) (h : Lined E s) :
    Lined (fun c => E c ∧ c ≠ b) (refill b s) := by
  obtain ⟨hqueue, hother, -, hstore⟩ := refillAll b (s.deferredSet b) s (refill b s) _
    (fun x hx => (deferredSet_device hx).2) rfl rfl
  generalize htaken : (s.deferredSet b).take (32 - (s.queue b).length) = taken
    at hqueue hstore
  have hsub : taken.Sublist (s.deferredSet b) := htaken ▸ List.take_sublist ..
  have hbus : ∀ i, (refill b s).slotBus i = s.slotBus i := fun i =>
    congrArg (fun F : Frame => F.bus i) (frameOf_refill b s)
  have hleft : ∀ y ∈ (refill b s).store, y.state = .deferred → y ∈ s.store ∧ y ∉ taken := by
    intro y hy hd
    rw [hstore] at hy
    obtain ⟨z, hz, rfl⟩ := List.mem_map.mp hy
    by_cases hany : taken.any (·.sameAs z) = true
    · rw [if_pos hany] at hd; cases hd
    · rw [if_neg hany] at hd ⊢
      exact ⟨hz, fun hin => hany (List.any_eq_true.mpr
        ⟨z, hin, (PendingRecord.sameAs_iff z z).mpr rfl⟩)⟩
  have hcount : ∀ i, ((refill b s).queue b).countP (·.waitsFor i) =
      (s.queue b).countP (·.waitsFor i) + taken.countP (·.slot == i) := fun i => by
    rw [hqueue, List.countP_append, List.countP_map]
    refine congrArg (_ + ·) (List.countP_congr fun x _ => ?_)
    rw [Function.comp_apply, refillEntry_waitsFor]
  have hzero : ∀ i, taken.countP (·.slot == i) ≠ 0 → ∃ x ∈ taken, x.slot = i := fun i hne => by
    obtain ⟨x, hx, hi⟩ := List.countP_pos_iff.mp (Nat.pos_of_ne_zero hne)
    exact ⟨x, hx, by simpa using hi⟩
  refine ⟨fun c i => ?_, fun i => ?_, fun y hy hd c => ?_, fun c hc y hy hd hyc => ?_⟩
  · by_cases hcb : b = c
    · subst hcb
      rw [hcount]
      by_cases hne : taken.countP (·.slot == i) = 0
      · rw [hne]; exact h.one b i
      · obtain ⟨x, hx, rfl⟩ := hzero i hne
        obtain ⟨hxs, hxd, -⟩ := mem_deferredSet.mp (hsub.subset hx)
        rw [h.apart x hxs hxd b, Nat.zero_add]
        exact hsub.countP_le.trans (countP_deferredSet_le.trans (h.deferred x.slot))
    · rw [hother c hcb]; exact h.one c i
  · rw [hstore]
    exact ((fewerDeferred_released _ _).countP i).trans (h.deferred i)
  · obtain ⟨hys, hyt⟩ := hleft y hy hd
    by_cases hcb : b = c
    · subst hcb
      rw [hcount, h.apart y hys hd b, Nat.zero_add]
      by_contra hne
      obtain ⟨x, hx, hslot⟩ := hzero _ hne
      obtain ⟨hxs, hxd, -⟩ := mem_deferredSet.mp (hsub.subset hx)
      exact hyt (h.deferred_unique hxs hys hxd hd hslot.symm ▸ hx)
    · rw [hother c hcb]; exact h.apart y hys hd c
  · obtain ⟨hys, hyt⟩ := hleft y hy hd
    rw [hbus] at hyc
    by_cases hcb : b = c
    · subst hcb
      have hin : y ∈ s.deferredSet b := mem_deferredSet.mpr ⟨hys, hd, hyc⟩
      have hlt : 32 - (s.queue b).length < (s.deferredSet b).length := by
        by_contra hge
        rw [List.take_of_length_le (Nat.le_of_not_lt hge)] at htaken
        exact hyt (htaken ▸ hin)
      rw [hqueue, List.length_append, List.length_map, ← htaken, List.length_take]
      omega
    · rw [hother c hcb]
      exact h.full c (fun he => hc ⟨he, Ne.symm hcb⟩) y hys hd hyc

/-! ### With the law that it rests on -/

/-- The law of the queues with its grounds, for the states of one frame. -/
abbrev LinedIn (F : Frame) (E : BusNo → Prop) (s : State) : Prop :=
  (frameOf s = F ∧ Grounds s) ∧ Lined E s

section
variable {F : Frame} {E : BusNo → Prop}

/-- A move that keeps the grounds, the queues and the deferred records. -/
theorem linedIn_of {s t : State} (h : LinedIn F E s)
    (ht : frameOf s = F ∧ Grounds s → frameOf t = F ∧ Grounds t)
    (hstore : FewerDeferred s.store t.store) (hq : ∀ b, t.queue b = s.queue b) :
    LinedIn F E t :=
  ⟨ht h.1, lined_same h.2 hstore ((ht h.1).1.trans h.1.1.symm) hq⟩

/-- A move that keeps the grounds and has its own word on the queues. -/
theorem linedIn_move {E' : BusNo → Prop} {s t : State} (h : LinedIn F E s)
    (ht : frameOf s = F ∧ Grounds s → frameOf t = F ∧ Grounds t)
    (hl : Lined E s → Lined E' t) : LinedIn F E' t := ⟨ht h.1, hl h.2⟩

theorem bookLaw (F : Frame) (E : BusNo → Prop) : BookLaw (LinedIn F E) where
  host s g h := linedIn_of h ((grounds_pieces F).host s g) (.refl _) fun _ => rfl
  phase s p h := linedIn_of h ((grounds_pieces F).phase s p) (.refl _) fun _ => rfl
  pending s l h := linedIn_of h ((grounds_pieces F).pending s l) (.refl _) fun _ => rfl
  draws s n h := linedIn_of h ((grounds_pieces F).draws s n) (.refl _) fun _ => rfl
  lease s k h := linedIn_of h ((grounds_pieces F).lease s k) (.refl _) fun _ => rfl
  offer s o h := linedIn_of h ((grounds_pieces F).offer s o) (.refl _) fun _ => rfl
  batch s k n b hm h := linedIn_of h ((grounds_pieces F).batch s k n b hm) (.refl _) fun _ => rfl
  sealList s l h := linedIn_of h ((grounds_pieces F).sealList s l) (.refl _) fun _ => rfl
  unstore s p h := linedIn_of h ((grounds_pieces F).unstore s p)
    (fewerDeferred_sublist List.filter_sublist) fun _ => rfl

theorem linedIn_setQueue {s : State} {b : BusNo} {q : List Entry} (h : LinedIn F E s)
    (hr : Reduced (s.queue b) q)
    (hq : ∀ i, q.countP (·.waitsFor i) ≤ (s.queue b).countP (·.waitsFor i)) :
    LinedIn F (fun c => E c ∨ c = b) (s.setQueue b q) :=
  linedIn_move h ((grounds_pieces F).queue s b q hr) fun hl => lined_setQueue hl hq

theorem linedIn_setQueue_long {s : State} {b : BusNo} {q : List Entry} (h : LinedIn F E s)
    (hr : Reduced (s.queue b) q)
    (hq : ∀ i, q.countP (·.waitsFor i) ≤ (s.queue b).countP (·.waitsFor i))
    (hlen : (s.queue b).length ≤ q.length) : LinedIn F E (s.setQueue b q) :=
  linedIn_move h ((grounds_pieces F).queue s b q hr) fun hl => lined_setQueue_long hl hq hlen

theorem linedIn_mono {E' : BusNo → Prop} {s : State} (h : LinedIn F E s) (hE : ∀ b, E b → E' b) :
    LinedIn F E' s := ⟨h.1, lined_mono h.2 hE⟩

theorem linedIn_refill (b : BusNo) {s : State} (h : LinedIn F E s) :
    LinedIn F (fun c => E c ∧ c ≠ b) (refill b s) :=
  linedIn_move h ((grounds_pieces F).refill b) (lined_refill b)

theorem linedIn_placePrimes {s : State} (h : LinedIn F E s) : LinedIn F E (placePrimes s) := by
  refine linedIn_move h (grounds_pieces F).placePrimes fun hl => ?_
  unfold placePrimes
  refine List.foldlRecOn (motive := Lined E) _ _ hl fun t ht i _ => ?_
  rcases placePrime_cases t i with e | ⟨d, b, -, -, -, e⟩ <;> rw [e]
  · exact ht
  · have hset : Lined E (t.setQueue b (t.queue b ++
        [slotEntry .prime i (t.slot i) d (t.slot i).live .priming])) :=
      lined_setQueue_long ht (fun j => (waitsFor_append_other (by simp [slotEntry, Entry.waitsFor])).le)
        (by simp)
    exact lined_same hset (.refl _) rfl fun _ => rfl

theorem linedIn_fillPlaces (b : BusNo) {s : State} (h : LinedIn F E s) :
    LinedIn F (fun c => E c ∧ c ≠ b) (fillPlaces b s) :=
  ite_keeps_right (linedIn_placePrimes (linedIn_refill b h)) (linedIn_refill b h)

theorem countP_markLate (d : Epoch) (q : List Entry) (i : SlotNo) :
    (markLate d q).countP (·.waitsFor i) ≤ q.countP (·.waitsFor i) :=
  countP_map_le (.refl q) fun e _ h => by split at h <;> exact h

theorem linedIn_markQueuesLate (d : Epoch) {s : State} (h : LinedIn F E s) :
    LinedIn F E (markQueuesLate d s) := by
  have h0 := linedIn_setQueue_long (b := 0) h (reduced_markLate d _) (countP_markLate d _)
    (List.length_map _).ge
  have hother : (s.setQueue 0 (markLate d (s.queue 0))).queue 1 = s.queue 1 :=
    (State.setQueue_queue ..).trans (if_neg (by decide))
  have h1 := linedIn_setQueue_long (b := 1) h0 (reduced_markLate d _) (countP_markLate d _)
    (List.length_map _).ge
  rw [hother] at h1
  exact h1

theorem countP_withoutPrimes (q : List Entry) (i : SlotNo) :
    (withoutPrimes q).countP (·.waitsFor i) ≤ q.countP (·.waitsFor i) :=
  countP_map_le List.filter_sublist fun e _ h => by split at h <;> exact h

theorem countP_withoutClient (k : Client) (q : List Entry) (i : SlotNo) :
    (withoutClient k q).countP (·.waitsFor i) ≤ q.countP (·.waitsFor i) :=
  countP_map_le List.filter_sublist fun e _ h => by split at h <;> exact h

theorem countP_afterReset (q : List Entry) (i : SlotNo) :
    ((q.filter (·.onBus)).map Entry.afterReset).countP (·.waitsFor i) ≤
      q.countP (·.waitsFor i) :=
  countP_map_le List.filter_sublist fun e _ h => by
    unfold Entry.afterReset at h
    split at h <;> exact h

theorem countP_handOver (n : Nat) (stamp : Option Epoch) (q : List Entry) (i : SlotNo) :
    (handOver n stamp q).countP (·.waitsFor i) ≤ q.countP (·.waitsFor i) := by
  have hfront : ((q.take n).map (fun e =>
      { e with onBus := true, stamp := stamp, attempts := 0 })).countP (·.waitsFor i) = 0 :=
    List.countP_eq_zero.mpr fun e he hw => by
      obtain ⟨x, -, rfl⟩ := List.mem_map.mp he
      cases (waitsFor_iff.mp hw).1
  rw [handOver, List.countP_append, hfront, Nat.zero_add]
  exact (List.drop_sublist n q).countP_le

theorem linedIn_abandonPrimes {s : State} (h : LinedIn F E s) : LinedIn F E (abandonPrimes s) := by
  have h0 := linedIn_refill 0 (linedIn_setQueue (b := 0) h (reduced_withoutPrimes _)
    (countP_withoutPrimes _))
  have h1 := linedIn_refill 1 (linedIn_setQueue (b := 1) h0 (reduced_withoutPrimes _)
    (countP_withoutPrimes _))
  refine linedIn_mono h1 fun b hb => ?_
  obtain ⟨⟨hE | rfl, hne0⟩ | rfl, hne1⟩ := hb
  · exact hE
  · exact absurd rfl hne0
  · exact absurd rfl hne1

theorem linedIn_noteAttempts (b : BusNo) {s : State} (h : LinedIn F E s) :
    LinedIn F E (noteAttempts b s) := by
  unfold noteAttempts
  split
  · exact h
  · refine linedIn_setQueue_long h (reduced_map (.refl _) fun e => ?_)
      (fun i => countP_map_le (.refl _) fun e _ hw => ?_) (by rw [List.length_map])
    · split <;> exact ⟨rfl, rfl, rfl, rfl⟩
    · split at hw <;> exact hw

theorem workLaw (F : Frame) (E : BusNo → Prop) : WorkLaw (LinedIn F E) where
  toTableLaw := (bookLaw F E).toTableLaw
  resolve := (bookLaw F E).resolve
  gen s g hg h := linedIn_of h ((grounds_pieces F).gen s g hg) (.refl _) fun _ => rfl
  outputs s v _ h := linedIn_of h ((grounds_pieces F).outputs s v) (.refl _) fun _ => rfl
  marks s h := linedIn_of h ((grounds_pieces F).marks s) (.refl _) fun _ => rfl
  probes s k n h := linedIn_of h ((grounds_pieces F).probes s k n) (.refl _) fun _ => rfl
  late _ d h := linedIn_markQueuesLate d h
  abandon _ h := linedIn_abandonPrimes h

end

end Sys2Proof.QueueLaw
end


section
/-! PROOFS. The law of the queues (R72, R73, R109) through releases, the composite operations and the
requests. -/

set_option Elab.async false

namespace Sys2Proof.QueueSteps

open Sys2Proof Sys2Proof.Machine Sys2Proof.Commands Sys2Proof.Rules Sys2Proof.Effects
open Sys2Proof.Schedule Sys2Proof.Carrying Sys2Proof.Leases Sys2Proof.Pieces
open Sys2Proof.PieceRequests Sys2Proof.TableLaws Sys2Proof.TableContents Sys2Proof.LawPairs
open Sys2Proof.QueueLaw

/-- The law of the queues on every bus, and with its last part suspended on bus `b`. -/
abbrev LinedAll (F : Frame) (s : State) : Prop := LinedIn F (fun _ => False) s

abbrev LinedBut (F : Frame) (b : BusNo) (s : State) : Prop := LinedIn F (fun c => c = b) s

/-! ### Supersede and release (R69 to R72, R111, R112) -/

/-- What a waiting change for slot `i` on bus `b` finds: no other waiting change, and deferred records
behind a queue with one free place at most. -/
structure Cleared (b : BusNo) (i : SlotNo) (s : State) : Prop where
  waiting : (s.queue b).countP (·.waitsFor i) = 0
  short : ∀ x ∈ s.store, x.state = .deferred → s.slotBus x.slot = some b →
    31 ≤ (s.queue b).length

theorem tellSuperseded_fewer (e : Entry) (i : SlotNo) (w : Work) :
    FewerDeferred w.st.store (tellSuperseded e i w).st.store := by
  unfold tellSuperseded
  split
  · refine fewerDeferred_sublist ?_
    unfold resolve
    rw [countOutcome_store]
    exact List.filter_sublist
  all_goals exact .refl _

/-- Where one element at most has a property, none is left when the first that has it is removed. -/
theorem countP_eraseP {p : Entry → Bool} {q : List Entry} (h : q.countP p ≤ 1) :
    (q.eraseP p).countP p = 0 := by
  induction q with
  | nil => rfl
  | cons e q ih =>
    by_cases hw : p e = true
    · rw [List.eraseP_cons_of_pos hw]
      rw [List.countP_cons_of_pos hw] at h
      omega
    · rw [List.eraseP_cons_of_neg hw, List.countP_cons_of_neg hw]
      rw [List.countP_cons_of_neg hw] at h
      exact ih h

section
variable {F : Frame} {b : BusNo} {i : SlotNo}

theorem supersede_cleared {w : Work} (h : LinedAll F w.st) :
    LinedBut F b (supersede b i w).st ∧ Cleared b i (supersede b i w).st := by
  rcases supersede_cases b i w with ⟨hnone, e⟩ | ⟨e, -, hw, he⟩
  · rw [e]
    refine ⟨linedIn_mono h fun _ => False.elim, List.countP_eq_zero.mpr ?_, fun x hx hd hb => ?_⟩
    · exact fun y hy => by simpa using List.find?_eq_none.mp hnone y hy
    · exact Nat.le_of_succ_le (h.2.full b id x hx hd hb)
  · rw [he]
    generalize hu : w.update (fun s => s.setQueue b ((s.queue b).eraseP (·.waitsFor i))) = u
    have hqueue : u.st.queue b = (w.st.queue b).eraseP (·.waitsFor i) := by
      rw [← hu]; exact (State.setQueue_queue ..).trans (if_pos rfl)
    have hset : LinedBut F b u.st := by
      rw [← hu]
      refine linedIn_mono (linedIn_setQueue h (reduced_sublist List.eraseP_sublist)
        fun _ => List.eraseP_sublist.countP_le) fun c hc => hc.resolve_left id
    have htold : (tellSuperseded e i u).st.queue b = u.st.queue b := by
      unfold State.queue; rw [tellSuperseded_queues]
    refine ⟨(bookLaw F _).tellSuperseded e i hset, ?_, fun x hx hd hb => ?_⟩
    · rw [htold, hqueue]; exact countP_eraseP (h.2.one b i)
    · have hx' : x ∈ w.st.store := by
        have := (tellSuperseded_fewer e i u).mem hx hd
        rw [← hu] at this
        exact this
      have hbus : w.st.slotBus x.slot = some b := by
        rw [← hb, (grounds_pieces F).slotBus h.1,
          (grounds_pieces F).slotBus ((bookLaw F (fun c => c = b)).tellSuperseded e i hset).1]
      have hfull := h.2.full b id x hx' hd hbus
      rw [htold, hqueue]
      have := List.length_eraseP (p := fun e : Entry => e.waitsFor i) (l := w.st.queue b)
      split at this <;> omega

theorem supersede_store (w : Work) :
    FewerDeferred w.st.store (supersede b i w).st.store := by
  rcases supersede_cases b i w with ⟨-, e⟩ | ⟨e, -, -, he⟩
  · rw [e]
  · rw [he]
    exact tellSuperseded_fewer e i (w.update fun s => s.setQueue b ((s.queue b).eraseP _))

/-- R72, R78: after it no record is deferred for the slot. -/
theorem supersedeDeferred_cleared {E : BusNo → Prop} {w : Work} (h : LinedIn F E w.st) :
    ∀ x ∈ (supersedeDeferred i w).st.store, x.state = .deferred → x.slot ≠ i := by
  intro x hx hd hi
  unfold supersedeDeferred at hx
  split at hx
  · rename_i hnone
    exact List.find?_eq_none.mp hnone x hx (by simp [hi, hd])
  · rename_i y hfound
    have hy := List.find?_some hfound
    simp only [Bool.and_eq_true, beq_iff_eq] at hy
    unfold resolve at hx
    rw [countOutcome_store] at hx
    obtain ⟨hx, hne⟩ := List.mem_filter.mp hx
    have hxy := h.2.deferred_unique (List.mem_of_find?_eq_some hfound) hx hy.2 hd
      (hi.trans hy.1.symm)
    rw [hxy] at hne
    simp at hne

/-- R127: an entry that waits for a slot is on the bus of the slot's device. -/
theorem waiting_other_bus {s : State} {c : BusNo} (h : LinedBut F b s)
    (hbus : s.slotBus i = some b) (hcb : c ≠ b) : (s.queue c).countP (·.waitsFor i) = 0 := by
  refine List.countP_eq_zero.mpr fun e he hw => hcb ?_
  obtain ⟨-, -, hslot⟩ := waitsFor_iff.mp hw
  obtain ⟨-, -, hqueue, -⟩ := h.1.2.2.1
  obtain ⟨-, hc, hrefers⟩ := hqueue c e he
  have hdevice := (hrefers i hslot).2
  rw [State.slotBus, hdevice] at hbus
  exact hc.symm.trans (Option.some.inj hbus)

theorem lined_releaseDownstream {x : PendingRecord} {d : DeviceNo} {w : Work}
    (hx : (F.slot x.slot).defined = true) (hd : (w.st.slot x.slot).device = some d)
    (h : LinedAll F w.st) : LinedAll F (releaseDownstream x d w).st := by
  refine ⟨(grounds_pieces F).releaseDownstream ⟨trivial, hx, trivial⟩ hd h.1, ?_⟩
  obtain ⟨b, v, hb, rfl, hcases⟩ := releaseDownstream_cases x d w
  have hsuper := (bookLaw F (fun _ => False)).supersedeDeferred x.slot h
  obtain ⟨hbut, hcleared⟩ := supersede_cleared (b := b) (i := x.slot) hsuper
  have hdeferred : ∀ y ∈ (supersede b x.slot (supersedeDeferred x.slot w)).st.store,
      y.state = .deferred → y.slot ≠ x.slot := fun y hy hyd =>
    supersedeDeferred_cleared h y ((supersede_store (supersedeDeferred x.slot w)).mem hy hyd) hyd
  have hbus : (supersede b x.slot (supersedeDeferred x.slot w)).st.slotBus x.slot = some b := by
    rw [(grounds_pieces F).slotBus hbut.1, ← (grounds_pieces F).slotBus h.1, State.slotBus, hd, hb]
    rfl
  generalize hv : supersede b x.slot (supersedeDeferred x.slot w) = v at *
  have hopen : Lined (fun c => False ∨ c = b) v.st := lined_mono hbut.2 fun _ => .inr
  rcases hcases with ⟨hroom, e⟩ | ⟨hfull, e⟩ <;> rw [e]
  · have henter := lined_enter (e := writeEntry (v.st.slot x.slot) d x false) hopen rfl
      hcleared.waiting hdeferred hcleared.short
    exact lined_same henter (fewerDeferred_released _ _) rfl fun _ => rfl
  · refine lined_defer hopen hbut.1.2.1.2.2.2.2 (fun c => ?_) hdeferred hbus hfull
    by_cases hcb : c = b
    · rw [hcb]; exact hcleared.waiting
    · exact waiting_other_bus hbut hbus hcb

theorem lined_releaseRecord {x : PendingRecord} {w : Work} (hx : (F.slot x.slot).defined = true)
    (h : LinedAll F w.st) : LinedAll F (releaseRecord w x).st := by
  have hm : LinedAll F (markReleasing x.batch w.st) := (bookLaw F _).markReleasing _ h
  unfold releaseRecord
  dsimp only
  split
  · exact (bookLaw F _).resolve _ _ _ _
      (linedIn_of hm ((grounds_pieces F).applyLocal _ x ⟨trivial, hx, trivial⟩ ‹_›) (.refl _)
        fun _ => rfl)
  · exact lined_releaseDownstream hx ‹_› hm

theorem lined_boundary {w : Work} (h : LinedAll F w.st) : LinedAll F (boundary w).st := by
  have hdue : LinedAll F (releaseDue { w with out := [] }).st := by
    unfold releaseDue
    refine List.foldlRecOn (motive := fun w : Work => LinedAll F w.st) _ _ h fun v hv x hx => ?_
    exact lined_releaseRecord
      ((grounds_pieces F).good w.st x h.1 (List.mem_of_mem_filter hx)).2.1 hv
  have hprograms : LinedAll F (takePrograms (releaseDue { w with out := [] }).st) := by
    generalize (releaseDue { w with out := [] }).st = u at hdue ⊢
    exact linedIn_of hdue ((grounds_pieces F).outputs _ _) (.refl _) fun _ => rfl
  exact (workLaw F _).draws _ _ ((workLaw F _).marks _ hprograms)

/-! ### The composite operations -/

/-- R124: RESET_SCHEDULE leaves each queue its ON_BUS entries. -/
theorem resetQueueEntries_queue (s : State) (b : BusNo) : (resetQueueEntries s).queue b =
    ((s.queue b).filter (·.onBus)).map Entry.afterReset := by
  unfold resetQueueEntries
  dsimp only
  generalize hp : allClients.foldl (fun t k => t.setProbes k (t.probes k - waitingProbes s k)) s = t
  have ht : ∀ c, t.queue c = s.queue c := by
    rw [← hp]
    exact List.foldlRecOn (motive := fun u : State => ∀ c, u.queue c = s.queue c) _ _
      (fun _ => rfl) fun u hu k _ c => hu c
  rcases ScheduleEvents.bus_cases b with rfl | rfl
  · rw [State.setQueue_queue, if_neg (by decide), State.setQueue_queue, if_pos rfl, ht]
  · rw [State.setQueue_queue, if_pos rfl, State.setQueue_queue, if_neg (by decide), ht]

theorem lined_resetTables {s : State} (h : LinedAll F s) :
    LinedAll F (resetBatchesAndStore (begin (resetQueueEntries s).draw)).st := by
  refine ⟨(grounds_pieces F).opLaw.resetTables s h.1, ?_⟩
  have hqueues : Lined (fun _ => True) (resetQueueEntries s) := by
    refine lined_of h.2 ?_ (fun x _ _ => ?_) (fun c i => ?_) fun _ hc => absurd trivial hc
    · rw [resetQueueEntries_store]
    · exact congrArg (fun F : Frame => F.bus x.slot)
        (((grounds_pieces F).resetQueueEntries h.1).1.trans h.1.1.symm)
    · rw [resetQueueEntries_queue]; exact countP_afterReset _ i
  refine ⟨?_, fun i => ?_, fun x hx => ?_, fun c _ x hx => ?_⟩
  · intro c i
    unfold State.queue
    rw [resetBatchesAndStore_queues]
    exact hqueues.one c i
  · exact Nat.zero_le _
  · cases hx
  · cases hx

theorem opLaw (F : Frame) : OpLaw (LinedAll F) (LinedBut F) where
  work := workLaw F _
  between _ := workLaw F _
  pop s b e rest hq h := linedIn_mono (linedIn_setQueue h
      (reduced_sublist (hq ▸ List.sublist_cons_self e rest))
      fun _ => (hq ▸ List.sublist_cons_self e rest).countP_le) fun _ hc => hc.resolve_left id
  complete s b e rest done hq h := by
    have hrest := lined_setQueue (q := rest) h.2
      fun _ => (hq ▸ List.sublist_cons_self e rest : rest.Sublist (s.queue b)).countP_le
    refine ⟨(grounds_pieces F).complete s b e rest done hq h.1,
      lined_mono (lined_same hrest ?_ (frameOf_completeSlot ..) fun c => ?_)
        fun _ hc => hc.resolve_left id⟩
    · rw [completeSlot_store]
    · unfold State.queue; rw [completeSlot_queues]
  fill b _ h := linedIn_mono (linedIn_fillPlaces b h) fun _ hc => hc.2 hc.1
  place _ h := linedIn_placePrimes h
  primes s hr h := linedIn_of h ((grounds_pieces F).primes s hr) (.refl _) fun _ => rfl
  boundary _ h := lined_boundary h
  engine s b e he h := linedIn_of h ((grounds_pieces F).engine s b e he) (.refl _) fun _ => rfl
  attempts b _ h := linedIn_noteAttempts b h
  handOver s b n stamp h := linedIn_setQueue_long h (reduced_handOver n stamp _)
    (countP_handOver n stamp _) (by
      rw [handOver, List.length_append, List.length_map, ← List.length_append,
        List.take_append_drop])
  tickLease w k h := by
    refine linedIn_of h ((grounds_pieces F).tickLease w k) ?_ fun b => ?_
    · rw [tickLease_frame]
    · rw [tickLease_frame]; rfl
  detachQueue k s b h := by
    unfold detachQueue
    dsimp only
    have hprobes := (workLaw F (fun _ => False)).probes s k
      (s.probes k - (s.queue b).countP (fun e => e.kind == .probe && e.detachRemoves k)) h
    refine linedIn_mono (linedIn_fillPlaces b (linedIn_setQueue hprobes
      (reduced_withoutClient k _) (countP_withoutClient k _))) fun c hc => ?_
    exact hc.1.elim id fun e => absurd e hc.2
  resetTables _ h := lined_resetTables h

end

/-! ### The requests -/

/-- The law of the queues with its grounds. -/
abbrev Orderly (s : State) : Prop := Grounds s ∧ Lined (fun _ => False) s

theorem linedAll_iff {F : Frame} {s : State} : LinedAll F s ↔ frameOf s = F ∧ Orderly s := and_assoc

theorem orderly_of {s t : State} (h : Orderly s) (ht : Grounds s → Grounds t)
    (hstore : FewerDeferred s.store t.store) (hq : t.queues = s.queues)
    (hbus : ∀ x ∈ s.store, x.state = .deferred → t.slotBus x.slot = s.slotBus x.slot) :
    Orderly t := by
  have hqueue : ∀ b, t.queue b = s.queue b := fun b => by unfold State.queue; rw [hq]
  refine ⟨ht h.1, lined_of h.2 hstore hbus (fun b i => ?_) fun b hb => ⟨hb, ?_⟩⟩
  · rw [hqueue]
  · rw [hqueue]

/-- A slot without pending records is written. -/
theorem slotBus_setSlot {s : State} {i : SlotNo} {r : Slot} (hp : s.pendingCount i = 0)
    (x : PendingRecord) (hx : x ∈ s.store) :
    (s.setSlot i r).slotBus x.slot = s.slotBus x.slot := by
  have hne : i ≠ x.slot := fun hi => List.countP_eq_zero.mp hp x hx (by simp [hi])
  change ((s.setSlot i r).slot x.slot).device.map _ = (s.slot x.slot).device.map _
  rw [State.setSlot_slot, if_neg hne]
  rfl

/-- R128: the device of a pending record's slot is in use and keeps its bus. -/
theorem slotBus_setDevice {s : State} {d : DeviceNo} {r : Device} (h : NothingDangles s)
    (hu : s.inUse d = false ∨ changesIdentity (s.device d) r = false) (x : PendingRecord)
    (hx : x ∈ s.store) : (s.setDevice d r).slotBus x.slot = s.slotBus x.slot := by
  change (s.slot x.slot).device.map _ = (s.slot x.slot).device.map _
  cases hj : (s.slot x.slot).device with
  | none => rfl
  | some j =>
    have hdefined := h.2.1 x hx
    exact congrArg some
      (setDevice_identity hu (inUse_of_slot hdefined hj) (h.1 x.slot j hdefined hj).1).2.1

theorem orderly_requests : RequestLaw Orderly where
  defineSlot s i d r device format kind min max initial h1 h2 hbusy h4 h5 h6 h := by
    obtain ⟨hp, -, -⟩ := counts_of_not_busy hbusy
    exact orderly_of h
      (grounds_requests.defineSlot s i d r device format kind min max initial h1 h2 hbusy h4 h5 h6)
      (.refl _) rfl fun x hx _ => slotBus_setSlot hp x hx
  undefineSlot s i h1 h2 hp h4 h := orderly_of h (grounds_requests.undefineSlot s i h1 h2 hp h4)
    (.refl _) rfl fun x hx _ => slotBus_setSlot hp x hx
  claim s o ho h := orderly_of h (grounds_requests.claim s o ho) (.refl _) rfl fun _ _ _ => rfl
  token s t h := orderly_of h (grounds_requests.token s t) (.refl _) rfl fun _ _ _ => rfl
  setLease s k n hn h := orderly_of h (grounds_requests.setLease s k n hn) (.refl _) rfl
    fun _ _ _ => rfl
  openBatch s k n id b h1 h2 h3 h4 h5 h := orderly_of h
    (grounds_requests.openBatch s k n id b h1 h2 h3 h4 h5) (.refl _) rfl fun _ _ _ => rfl
  restaged s k n b h1 h2 h := orderly_of h (grounds_requests.restaged s k n b h1 h2) (.refl _) rfl
    fun _ _ _ => rfl
  sealBatch s k n t slipped h1 h2 h3 h4 h5 h := by
    refine orderly_of h (grounds_requests.sealBatch s k n t slipped h1 h2 h3 h4 h5)
      (fewerDeferred_append fun x hx => ?_) rfl fun _ _ _ => rfl
    rw [BatchRequests.pendingList_eq] at hx
    obtain ⟨p, hp, rfl⟩ := List.mem_mapIdx.mp hx
    rfl
  setGeometry s a b c d e h1 h2 h := orderly_of h (grounds_requests.setGeometry s a b c d e h1 h2)
    (.refl _) rfl fun _ _ _ => rfl
  defineDevice s d r h1 hu h3 h := orderly_of h (grounds_requests.defineDevice s d r h1 hu h3)
    (.refl _) rfl fun x hx _ => slotBus_setDevice h.1.2.1 hu x hx
  busSpeed s b v h := orderly_of h (grounds_requests.busSpeed s b v) (.refl _) rfl fun _ _ _ => rfl
  fetch s k n h := orderly_of h (grounds_requests.fetch s k n) (.refl _) rfl fun _ _ _ => rfl
  subscribe s k set divider h1 h := orderly_of h (grounds_requests.subscribe s k set divider h1)
    (.refl _) rfl fun _ _ _ => rfl
  detachEvents s k h := orderly_of h (grounds_requests.detachEvents s k) (.refl _) rfl
    fun _ _ _ => rfl

/-- R16, R111: a NOW entry enters for a slot without a pending record. -/
theorem orderly_writeNow {s : State} {b : BusNo} {i : SlotNo} {d : DeviceNo} {v : Value}
    {k : Client} {tag : Byte} (hg : Grounds (append b (slotEntry .now i (s.slot i) d v
      (.client k tag)) (supersede b i (begin s)).st)) (hcls : (s.slot i).cls ≠ .epoch)
    (h : Orderly s) : Orderly (append b (slotEntry .now i (s.slot i) d v (.client k tag))
      (supersede b i (begin s)).st) := by
  obtain ⟨hbut, hcleared⟩ := supersede_cleared (F := frameOf s) (b := b) (i := i) (w := begin s)
    ⟨⟨rfl, h.1⟩, h.2⟩
  have hslots : (supersede b i (begin s)).st.slots = s.slots := by rw [supersede_slots]; rfl
  refine ⟨hg, ?_⟩
  generalize (supersede b i (begin s)).st = u at hbut hcleared hslots ⊢
  unfold append
  split
  · refine lined_enter (i := i) (lined_mono hbut.2 fun _ => .inr) rfl hcleared.waiting
      (fun x hx _ hi => hcls ?_) hcleared.short
    have hx' := hbut.1.2.2.2.1 x hx
    rwa [State.slot, hslots, hi] at hx'
  · rename_i hroom
    have hfull : 32 ≤ (u.queue b).length :=
      Nat.le_of_not_lt fun hlt => hroom ((hasRoom_iff u b).mpr hlt)
    refine ⟨hbut.2.one, hbut.2.deferred, hbut.2.apart, fun c _ x hx hd hxc => ?_⟩
    by_cases hcb : c = b
    · rw [hcb]; exact hfull
    · exact hbut.2.full c hcb x hx hd hxc

theorem orderly_queueRequests : QueueRequestLaw Orderly where
  claims s c hc h := orderly_of h ((queueRequestLaw grounds_pieces grounds_entries).claims s c hc)
    (.refl _) rfl fun _ _ _ => rfl
  dropOpen s k n hn h :=
    orderly_of h ((queueRequestLaw grounds_pieces grounds_entries).dropOpen s k n hn) (.refl _) rfl
      fun _ _ _ => rfl
  cancel s r n hn h :=
    orderly_of h ((queueRequestLaw grounds_pieces grounds_entries).cancel s r n hn)
      (fewerDeferred_sublist List.filter_sublist) rfl fun _ _ _ => rfl
  writeNow s b i d v k tag h1 hcls h3 h4 h5 h :=
    orderly_writeNow ((queueRequestLaw grounds_pieces grounds_entries).writeNow s b i d v k tag h1
      hcls h3 h4 h5 h.1) hcls h
  probe s b d k tag register width order h1 h2 h := by
    refine ⟨(queueRequestLaw grounds_pieces grounds_entries).probe s b d k tag register width order
      h1 h2 h.1, ?_⟩
    have ha : Lined (fun _ => False) (append b (probeEntry k tag d register width order) s) :=
      append_keeps h.2 fun _ => lined_setQueue_long h.2
        (fun i => (waitsFor_append_other (by simp [probeEntry, Entry.waitsFor])).le) (by simp)
    exact lined_same ha (.refl _) rfl fun _ => rfl
  recover s b k hf h :=
    orderly_of h ((queueRequestLaw grounds_pieces grounds_entries).recover s b k hf) (.refl _) rfl
      fun _ _ _ => rfl

theorem reset_orderly : Orderly State.reset := by
  refine ⟨⟨Books.reset_batches, reset_dangles, nofun, fun k n ho => ?_⟩, ⟨fun b i => ?_,
    fun _ => Nat.zero_le _, nofun, nofun⟩⟩
  · rw [reset_context] at ho; cases ho
  · rw [reset_queue]; exact Nat.zero_le _

theorem orderly_kept : KeptByEveryStep Orderly := by
  refine kept_of_opLaw (Q := LinedBut) (fun F => ?_) orderly_requests orderly_queueRequests
    reset_orderly
  have hsame : (fun s => frameOf s = F ∧ Orderly s) = LinedAll F :=
    funext fun _ => propext linedAll_iff.symm
  rw [hsame]
  exact opLaw F

/-- Settles O53: the law of the queues is carried together with its grounds. -/
theorem everyStepKeepsCapacities : Obligations.EveryStepKeepsCapacities := by
  refine ⟨capacity_kept, events_kept, ?_⟩
  have hsame : (fun s => BatchesWithinRules s ∧ NothingDangles s ∧ QueuesWithinRules s) =
      Orderly := by
    funext s
    rw [queuesWithinRules_iff]
    exact propext ⟨fun ⟨hb, hn, hc, hl⟩ => ⟨⟨hb, hn, hc⟩, hl⟩, fun ⟨⟨hb, hn, hc⟩, hl⟩ => ⟨hb, hn, hc, hl⟩⟩
  rw [hsame]
  exact orderly_kept

end Sys2Proof.QueueSteps
end


section
/-! PROOFS. The law of the transfers (R109, R131, R136): ON_BUS entries in front of their queue, none
without a transfer, and each transfer in line with its engine's state. -/

set_option Elab.async false

namespace Sys2Proof.TransferLaw

open Sys2Proof Sys2Proof.Machine Sys2Proof.Commands Sys2Proof.Rules Sys2Proof.Effects
open Sys2Proof.Schedule Sys2Proof.Carrying Sys2Proof.Leases Sys2Proof.Pieces
open Sys2Proof.PieceRequests Sys2Proof.TableContents

/-! ### Moves of a queue that leave its front -/

/-- The queue is its ON_BUS entries `front`, and then WAITING ones. -/
abbrev Splits (q front back : List Entry) : Prop :=
  q = front ++ back ∧ (∀ e ∈ front, e.onBus = true) ∧ ∀ e ∈ back, e.onBus = false

/-- A move of a queue that leaves as many ON_BUS entries in its front. -/
def FrontKept (q q' : List Entry) : Prop := ∀ front back, Splits q front back →
  ∃ front' back', Splits q' front' back' ∧ front'.length = front.length

theorem FrontKept.refl (q : List Entry) : FrontKept q q := fun front back h => ⟨front, back, h, rfl⟩

theorem FrontKept.trans {q q' q'' : List Entry} (h : FrontKept q q') (g : FrontKept q' q'') :
    FrontKept q q'' := by
  intro front back hs
  obtain ⟨front', back', hs', hlen⟩ := h front back hs
  obtain ⟨front'', back'', hs'', hlen'⟩ := g front' back' hs'
  exact ⟨front'', back'', hs'', hlen'.trans hlen⟩

theorem frontKept_filter_map {q : List Entry} {p : Entry → Bool} {f : Entry → Entry}
    (hp : ∀ e : Entry, e.onBus = true → p e = true) (hf : ∀ e : Entry, (f e).onBus = e.onBus) :
    FrontKept q ((q.filter p).map f) := by
  rintro front back ⟨rfl, hfront, hback⟩
  have hall : front.filter p = front := List.filter_eq_self.mpr fun e he => hp e (hfront e he)
  refine ⟨front.map f, (back.filter p).map f, ⟨?_, fun e' he' => ?_, fun e' he' => ?_⟩,
    List.length_map _⟩
  · rw [List.filter_append, hall, List.map_append]
  · obtain ⟨e, he, rfl⟩ := List.mem_map.mp he'
    exact (hf e).trans (hfront e he)
  · obtain ⟨e, he, rfl⟩ := List.mem_map.mp he'
    exact (hf e).trans (hback e (List.mem_of_mem_filter he))

theorem frontKept_map {q : List Entry} {f : Entry → Entry}
    (hf : ∀ e : Entry, (f e).onBus = e.onBus) : FrontKept q (q.map f) := by
  have h := frontKept_filter_map (q := q) (p := fun _ => true) (fun _ _ => rfl) hf
  rwa [List.filter_true] at h

theorem frontKept_eraseP {q : List Entry} {p : Entry → Bool}
    (hp : ∀ e : Entry, e.onBus = true → p e = false) : FrontKept q (q.eraseP p) := by
  rintro front back ⟨rfl, hfront, hback⟩
  refine ⟨front, back.eraseP p, ⟨List.eraseP_append_right _ fun e he => ?_, hfront,
    fun e he => hback e (List.eraseP_subset he)⟩, rfl⟩
  rw [hp e (hfront e he)]
  exact Bool.false_ne_true

theorem frontKept_append {q : List Entry} {e : Entry} (he : e.onBus = false) :
    FrontKept q (q ++ [e]) := by
  rintro front back ⟨rfl, hfront, hback⟩
  refine ⟨front, back ++ [e], ⟨List.append_assoc .., hfront, fun x hx => ?_⟩, rfl⟩
  rcases List.mem_append.mp hx with hx | hx
  · exact hback x hx
  · rw [List.mem_singleton.mp hx]; exact he

/-! ### Operations that leave the engines and the fronts -/

/-- From `s` to `t` the engines stay, and so does what is ON_BUS in front of each queue. -/
def Quiet (s t : State) : Prop :=
  ∀ b : BusNo, t.engine b = s.engine b ∧ FrontKept (s.queue b) (t.queue b)

theorem Quiet.refl (s : State) : Quiet s s := fun _ => ⟨rfl, .refl _⟩

theorem Quiet.trans {s t u : State} (h : Quiet s t) (g : Quiet t u) : Quiet s u := fun b =>
  ⟨(g b).1.trans (h b).1, (h b).2.trans (g b).2⟩

theorem quiet_setQueue {s t : State} {b : BusNo} {q : List Entry} (h : Quiet s t)
    (hq : FrontKept (t.queue b) q) : Quiet s (t.setQueue b q) := by
  intro c
  refine ⟨(h c).1, ?_⟩
  rw [State.setQueue_queue]
  split
  · rename_i hbc; subst hbc; exact (h b).2.trans hq
  · exact (h c).2

theorem quiet_same {s t u : State} (h : Quiet s t) (hb : u.buses.engine = t.buses.engine)
    (hq : u.queues.queue = t.queues.queue) : Quiet s u := by
  intro c
  have he : u.engine c = t.engine c := by unfold State.engine; rw [hb]
  have hqueue : u.queue c = t.queue c := by unfold State.queue; rw [hq]
  rw [he, hqueue]
  exact h c

theorem quiet_books (s : State) : BookLaw (Quiet s) where
  host _ _ h := h
  phase _ _ h := h
  pending _ _ h := h
  draws _ _ h := h
  lease _ _ h := h
  offer _ _ h := h
  batch _ _ _ _ _ h := h
  sealList _ _ h := h
  unstore _ _ h := h

section
variable {s : State}

theorem waitsFor_onBus {e : Entry} (h : e.onBus = true) (i : SlotNo) : e.waitsFor i = false := by
  simp [Entry.waitsFor, h]

theorem quiet_supersede (b : BusNo) (i : SlotNo) {w : Work} (h : Quiet s w.st) :
    Quiet s (supersede b i w).st := by
  rcases supersede_cases b i w with ⟨-, e⟩ | ⟨e, -, -, he⟩
  · rwa [e]
  · rw [he]
    exact (quiet_books s).tellSuperseded _ _
      (quiet_setQueue h (frontKept_eraseP fun x hx => waitsFor_onBus hx i))

theorem quiet_releaseRecord (x : PendingRecord) {w : Work} (h : Quiet s w.st) :
    Quiet s (releaseRecord w x).st := by
  have hm : Quiet s (markReleasing x.batch w.st) := (quiet_books s).markReleasing _ h
  unfold releaseRecord
  dsimp only
  split
  · exact (quiet_books s).resolve _ _ _ _ hm
  · rename_i d _
    obtain ⟨b, v, -, rfl, hcases⟩ :=
      releaseDownstream_cases x d (w.update (markReleasing x.batch))
    have hv := quiet_supersede b x.slot
      ((quiet_books s).supersedeDeferred x.slot (w := w.update (markReleasing x.batch)) hm)
    rcases hcases with ⟨-, e⟩ | ⟨-, e⟩ <;> rw [e, Work.update_st] <;>
      generalize (supersede b x.slot _).st = u at hv ⊢
    · have hset : Quiet s (u.setQueue b (u.queue b ++ [writeEntry (u.slot x.slot) d x false])) :=
        quiet_setQueue hv (frontKept_append rfl)
      exact quiet_same hset rfl rfl
    · exact quiet_same hv rfl rfl

theorem quiet_boundary (w : Work) (h : Quiet s w.st) : Quiet s (boundary w).st := by
  have hdue : Quiet s (releaseDue { w with out := [] }).st := by
    unfold releaseDue
    exact List.foldlRecOn (motive := fun w : Work => Quiet s w.st) _ _ h
      fun _ hv x _ => quiet_releaseRecord x hv
  have hrest : ∀ u : State, Quiet s u → Quiet s (advanceMarks (takePrograms u)).draw :=
    fun u hu => quiet_same hu rfl rfl
  exact hrest _ hdue

theorem quiet_refill (b : BusNo) {t : State} (h : Quiet s t) : Quiet s (refill b t) := by
  unfold refill
  refine List.foldlRecOn (motive := Quiet s) _ _ h fun u hu x _ => ?_
  rcases refillOne_cases b u x with e | ⟨d, -, -, e⟩ <;> rw [e]
  · exact hu
  · exact quiet_setQueue hu (frontKept_append rfl)

theorem quiet_placePrimes (t : State) (h : Quiet s t) : Quiet s (placePrimes t) := by
  unfold placePrimes
  refine List.foldlRecOn (motive := Quiet s) _ _ h fun u hu i _ => ?_
  rcases placePrime_cases u i with e | ⟨d, b, -, -, -, e⟩ <;> rw [e]
  · exact hu
  · exact quiet_setQueue hu (frontKept_append rfl)

theorem quiet_fillPlaces (b : BusNo) {t : State} (h : Quiet s t) : Quiet s (fillPlaces b t) :=
  ite_keeps_right (quiet_placePrimes _ (quiet_refill b h)) (quiet_refill b h)

theorem frontKept_markLate (d : Epoch) (q : List Entry) : FrontKept q (markLate d q) :=
  frontKept_map fun e => by split <;> rfl

theorem quiet_markQueuesLate (d : Epoch) {t : State} (h : Quiet s t) :
    Quiet s (markQueuesLate d t) := by
  have hother : (t.setQueue 0 (markLate d (t.queue 0))).queue 1 = t.queue 1 :=
    (State.setQueue_queue ..).trans (if_neg (by decide))
  have h1 := quiet_setQueue (b := 1) (quiet_setQueue (b := 0) h (frontKept_markLate d _))
    (frontKept_markLate d _)
  rw [hother] at h1
  exact h1

theorem frontKept_withoutPrimes (q : List Entry) : FrontKept q (withoutPrimes q) :=
  frontKept_filter_map (fun e he => by simp [he]) fun e => by split <;> rfl

theorem frontKept_withoutClient (k : Client) (q : List Entry) : FrontKept q (withoutClient k q) :=
  frontKept_filter_map (fun e he => by simp [Entry.detachRemoves, he]) fun e => by split <;> rfl

theorem frontKept_afterReset (q : List Entry) :
    FrontKept q ((q.filter (·.onBus)).map Entry.afterReset) :=
  frontKept_filter_map (fun _ he => he) fun e => by unfold Entry.afterReset; split <;> rfl

theorem quiet_abandonPrimes {t : State} (h : Quiet s t) : Quiet s (abandonPrimes t) :=
  quiet_refill 1 (quiet_setQueue (quiet_refill 0 (quiet_setQueue h (frontKept_withoutPrimes _)))
    (frontKept_withoutPrimes _))

theorem quiet_noteAttempts (b : BusNo) {t : State} (h : Quiet s t) : Quiet s (noteAttempts b t) := by
  unfold noteAttempts
  split
  · exact h
  · exact quiet_setQueue h (frontKept_map fun e => by split <;> rfl)

theorem quiet_detachQueue (k : Client) (t : State) (b : BusNo) (h : Quiet s t) :
    Quiet s (detachQueue k t b) := by
  unfold detachQueue
  dsimp only
  have hprobes : Quiet s (t.setProbes k
      (t.probes k - (t.queue b).countP (fun e => e.kind == .probe && e.detachRemoves k))) := h
  exact quiet_fillPlaces b (quiet_setQueue hprobes (frontKept_withoutClient k _))

theorem quiet_resetTables {t : State} (h : Quiet s t) :
    Quiet s (resetBatchesAndStore (begin (resetQueueEntries t).draw)).st := by
  refine (quiet_books s).resetBatches fun b => ?_
  have hqueue : ((begin (resetQueueEntries t).draw)).st.queue b = _ :=
    QueueSteps.resetQueueEntries_queue t b
  have hengine : (begin (resetQueueEntries t).draw).st.engine b = t.engine b := by
    change (resetQueueEntries t).engine b = t.engine b
    unfold State.engine
    rw [resetQueueEntries_buses]
  rw [hqueue, hengine]
  exact ⟨(h b).1, (h b).2.trans (frontKept_afterReset _)⟩

theorem quiet_completeSlot (e : Entry) (done : Bool) {t : State} (h : Quiet s t) :
    Quiet s (completeSlot e done t) := by
  refine quiet_same h ?_ ?_
  · rw [completeSlot_buses]
  · rw [completeSlot_queues]

theorem quiet_schedule (s : State) : ScheduleLaw (Quiet s) where
  toTableLaw := (quiet_books s).toTableLaw
  resolve := (quiet_books s).resolve
  gen _ _ _ h := h
  outputs _ _ _ h := h
  marks _ h := h
  probes _ _ _ h := h
  late _ d h := quiet_markQueuesLate d h
  abandon _ h := quiet_abandonPrimes h
  boundary := quiet_boundary
  place := quiet_placePrimes
  primes _ _ h := h

end

/-! ### Engines and their fronts -/

/-- R109: the queue has its ON_BUS entries in front: `n` of them where no transfer is in progress. -/
def FrontOk (n : Nat) (q : List Entry) (x : Option Transfer) : Prop :=
  ∃ front back, Splits q front back ∧ (x = none → front.length = n)

/-- R131, R136: an engine's transfer against its state. -/
structure EngineOk (e : Engine) : Prop where
  free : e.state = .idle ∨ e.state = .fault → e.xfer = none
  busy : e.state = .transfer → e.xfer.isSome = true
  asked : e.requester.isSome = true → e.state = .recovery ∧ e.xfer = none
  stretch : e.stretchCount ≤ 2

/-- The law of the transfers, where `n b` entries of bus `b` have still to leave after its transfer. -/
def Carries (n : BusNo → Nat) (s : State) : Prop :=
  ∀ b : BusNo, FrontOk (n b) (s.queue b) (s.engine b).xfer ∧ EngineOk (s.engine b)

theorem transfers_iff {s : State} : TransfersWithinRules s ↔ Carries (fun _ => 0) s := by
  refine forall_congr' fun b => ?_
  constructor
  · rintro ⟨⟨front, back, hq, hon, hoff, hnil⟩, hfree, hbusy, hasked, hstretch⟩
    exact ⟨⟨front, back, ⟨hq, hon, hoff⟩, fun hx => congrArg List.length (hnil hx)⟩,
      hfree, hbusy, hasked, hstretch⟩
  · rintro ⟨⟨front, back, ⟨hq, hon, hoff⟩, hlen⟩, hfree, hbusy, hasked, hstretch⟩
    exact ⟨⟨front, back, hq, hon, hoff, fun hx => List.length_eq_zero_iff.mp (hlen hx)⟩,
      hfree, hbusy, hasked, hstretch⟩

theorem EngineOk.requester_none {e : Engine} (h : EngineOk e)
    (hx : e.xfer.isSome = true ∨ e.state ≠ .recovery) : e.requester = none := by
  rw [← Option.not_isSome_iff_eq_none]
  intro hr
  obtain ⟨hstate, hnone⟩ := h.asked hr
  rcases hx with hx | hx
  · rw [hnone] at hx; cases hx
  · exact hx hstate

/-- An engine with other speeds, pulses and wires. -/
theorem EngineOk.same {e e' : Engine} (h : EngineOk e) (hs : e'.state = e.state := by rfl)
    (hx : e'.xfer = e.xfer := by rfl) (hr : e'.requester = e.requester := by rfl)
    (hc : e'.stretchCount = e.stretchCount := by rfl) : EngineOk e' := by
  obtain ⟨hfree, hbusy, hasked, hstretch⟩ := h
  exact ⟨by rw [hs, hx]; exact hfree, by rw [hs, hx]; exact hbusy, by rw [hs, hx, hr]; exact hasked,
    by rw [hc]; exact hstretch⟩

section
variable {n : BusNo → Nat} {s t : State}

theorem carries_quiet (h : Carries n s) (hq : Quiet s t) : Carries n t := by
  intro b
  obtain ⟨he, hkept⟩ := hq b
  obtain ⟨⟨front, back, hsplits, hlen⟩, hok⟩ := h b
  obtain ⟨front', back', hsplits', hlen'⟩ := hkept front back hsplits
  rw [he]
  exact ⟨⟨front', back', hsplits', fun hx => hlen'.trans (hlen hx)⟩, hok⟩

theorem carries_setEngine {m : BusNo → Nat} {b : BusNo} {e : Engine} (h : Carries n s)
    (hother : ∀ c, c ≠ b → m c = n c) (hfront : FrontOk (m b) (s.queue b) e.xfer)
    (he : EngineOk e) : Carries m (s.setEngine b e) := by
  intro c
  rw [State.setEngine_engine]
  split
  · rename_i hbc; subst hbc; exact ⟨hfront, he⟩
  · rename_i hbc; rw [hother c (Ne.symm hbc)]; exact h c

/-- An engine that keeps its transfer. -/
theorem carries_setEngine_xfer {b : BusNo} {e : Engine} (h : Carries n s)
    (hx : e.xfer = (s.engine b).xfer) (he : EngineOk e) : Carries n (s.setEngine b e) :=
  carries_setEngine h (fun _ _ => rfl) (hx ▸ (h b).1) he

/-- An engine that has a transfer. -/
theorem carries_setEngine_some {b : BusNo} {e : Engine} (h : Carries n s)
    (hx : e.xfer.isSome = true) (he : EngineOk e) : Carries n (s.setEngine b e) := by
  obtain ⟨front, back, hsplits, -⟩ := (h b).1
  refine carries_setEngine h (fun _ _ => rfl) ⟨front, back, hsplits, fun hnone => ?_⟩ he
  rw [hnone] at hx
  cases hx

/-! ### The end of a transfer -/

/-- `n` entries of bus `b` have still to leave. -/
def leaving (b : BusNo) (n : Nat) : BusNo → Nat := fun c => if c = b then n else 0

theorem leaving_self (b : BusNo) (n : Nat) : leaving b n b = n := if_pos rfl

theorem leaving_zero (b : BusNo) : leaving b 0 = fun _ => 0 := funext fun _ => ite_self ..

theorem carries_pop {b : BusNo} {e : Entry} {rest : List Entry} {m : Nat}
    (h : Carries (leaving b (m + 1)) s) (hx : (s.engine b).xfer = none)
    (hq : s.queue b = e :: rest) : Carries (leaving b m) (s.setQueue b rest) := by
  intro c
  rw [State.setQueue_queue]
  split
  · rename_i hbc
    subst hbc
    obtain ⟨⟨front, back, ⟨hsplit, hon, hoff⟩, hlen⟩, hok⟩ := h b
    have hfront := hlen hx
    rw [leaving_self] at hfront ⊢
    cases front with
    | nil => cases hfront
    | cons x front =>
      rw [hq, List.cons_append] at hsplit
      refine ⟨⟨front, back, ⟨(List.cons.inj hsplit).2, fun y hy => hon y (List.mem_cons_of_mem _ hy),
        hoff⟩, fun _ => Nat.succ.inj hfront⟩, hok⟩
  · rename_i hbc
    have hc := h c
    unfold leaving at hc ⊢
    rw [if_neg (Ne.symm hbc)] at hc ⊢
    exact hc

theorem carries_endEntries (b : BusNo) (done : Bool) (bytes : List Byte) {m : Nat} {w : Work}
    (h : Carries (leaving b m) w.st) (hx : (w.st.engine b).xfer = none) :
    Carries (fun _ => 0) (endEntries b done bytes m w).st := by
  induction m generalizing w with
  | zero => rw [← leaving_zero b]; exact h
  | succ m ih =>
    obtain ⟨⟨front, back, ⟨hsplit, -, -⟩, hlen⟩, -⟩ := h b
    have hfront := hlen hx
    rw [leaving_self] at hfront
    cases front with
    | nil => cases hfront
    | cons e front =>
      rw [endEntries_cons b done bytes m w e (front ++ back) hsplit]
      have hpop := carries_pop h hx hsplit
      have hquiet : Quiet (w.st.setQueue b (front ++ back)) ((handOn e done bytes
          (w.update (·.setQueue b (front ++ back)))).update (fillPlaces b)).st :=
        quiet_fillPlaces b ((quiet_schedule _).handOn e done bytes
          (fun _ => quiet_completeSlot e done (.refl _)) (fun _ => .refl _))
      exact ih (carries_quiet hpop hquiet) ((congrArg Engine.xfer (hquiet b).1).trans hx)

theorem length_takeWhile_front {front back : List Entry} (hon : ∀ e ∈ front, e.onBus = true)
    (hoff : ∀ e ∈ back, e.onBus = false) : carriedCount (front ++ back) = front.length := by
  unfold carriedCount
  rw [List.takeWhile_append_of_pos hon]
  cases back with
  | nil => simp
  | cons e back => simp [hoff e (List.mem_cons_self ..)]

theorem carries_endTransfer (b : BusNo) (done : Bool) (bytes : List Byte) {next : EngineState}
    {w : Work} (h : Carries (fun _ => 0) w.st) (hr : (w.st.engine b).requester = none)
    (hnext : next = .idle ∨ next = .fault) :
    Carries (fun _ => 0) (endTransfer b done bytes next w).st := by
  have hfreed : Carries (leaving b (carriedCount (w.st.queue b)))
      (w.update (freeEngine b next)).st := by
    obtain ⟨⟨front, back, ⟨hsplit, hon, hoff⟩, -⟩, hok⟩ := h b
    refine carries_setEngine h (fun c hc => if_neg hc) ?_ ⟨fun _ => rfl, fun ht => ?_, fun ha => ?_,
      Nat.zero_le _⟩
    · rw [leaving_self, hsplit, length_takeWhile_front hon hoff]
      exact ⟨front, back, ⟨rfl, hon, hoff⟩, fun _ => rfl⟩
    · rcases hnext with rfl | rfl <;> cases ht
    · rw [hr] at ha; cases ha
  have hend := carries_endEntries b done bytes hfreed (by
    rw [Work.update_st, freeEngine, State.setEngine_engine, if_pos rfl])
  exact carries_quiet hend ((quiet_schedule _).endTransfer_of_entries (.refl _))

/-! ### Attempts and recoveries -/

theorem beginAttempt_ok {t : Transfer} {dataLow : Bool} {e : Engine} (hr : e.requester = none) :
    (beginAttempt t dataLow e).xfer.isSome = true ∧ EngineOk (beginAttempt t dataLow e) := by
  have hasked : ¬ e.requester.isSome = true := by rw [hr]; exact Bool.false_ne_true
  unfold beginAttempt
  split
  · exact ⟨rfl, nofun, nofun, fun ha => absurd ha hasked, Nat.zero_le _⟩
  · exact ⟨rfl, nofun, fun _ => rfl, fun ha => absurd ha hasked, Nat.zero_le _⟩

theorem carries_retryOrFail (b : BusNo) (t : Transfer) (dataLow : Bool) {w : Work}
    (h : Carries (fun _ => 0) w.st) (hr : (w.st.engine b).requester = none) :
    Carries (fun _ => 0) (retryOrFail b t dataLow w).st := by
  unfold retryOrFail
  split
  · obtain ⟨hx, hok⟩ := beginAttempt_ok (t := t) (dataLow := dataLow) hr
    exact carries_quiet (carries_setEngine_some h hx hok) (quiet_noteAttempts b (.refl _))
  · exact carries_endTransfer b false [] h hr (.inl rfl)

theorem carries_clearRequester {b : BusNo} (h : Carries (fun _ => 0) s) :
    Carries (fun _ => 0) (s.setEngine b { s.engine b with requester := none }) :=
  carries_setEngine_xfer h rfl ⟨(h b).2.free, (h b).2.busy, nofun, (h b).2.stretch⟩

theorem carries_enterFault (b : BusNo) {w : Work} (h : Carries (fun _ => 0) w.st) :
    Carries (fun _ => 0) (enterFault b w).st := by
  unfold enterFault
  dsimp only
  split
  · rename_i x hx
    refine carries_clearRequester ?_
    rw [reportBus_st]
    exact carries_endTransfer b false [] h ((h b).2.requester_none (.inl (by rw [hx]; rfl)))
      (.inr rfl)
  · rename_i hx
    rw [Work.update_st, reportBus_st, Work.update_st, State.setEngine_engine, if_pos rfl,
      State.setEngine_setEngine]
    exact carries_setEngine_xfer h rfl ⟨fun _ => hx, nofun, nofun, Nat.zero_le _⟩

theorem carries_exceedStretch (b : BusNo) (passed : Nat) (h : Carries (fun _ => 0) s) :
    Carries (fun _ => 0) (exceedStretch b passed s).st := by
  unfold exceedStretch
  split
  · rename_i t _ hx
    have hr := (h b).2.requester_none (.inl (by rw [hx]; rfl))
    refine carries_quiet (carries_setEngine_some h rfl
      ⟨by simp, by simp, fun ha => ?_, Nat.zero_le _⟩)
      (quiet_noteAttempts b (.refl _))
    exact absurd ha (by rw [hr]; exact Bool.false_ne_true)
  · exact carries_enterFault b (carries_setEngine_xfer h rfl (h b).2.same)
  · exact h

theorem carries_endRecovery (b : BusNo) (lowLooks : Nat) (freed dataLow : Bool)
    (h : Carries (fun _ => 0) s) : Carries (fun _ => 0) (endRecovery b lowLooks freed dataLow s).st := by
  unfold endRecovery
  dsimp only
  generalize he : ({ s.engine b with
    pulses := pulsesFor lowLooks,
    sent := (s.engine b).sent ++ pulseItems (pulsesFor lowLooks) ++ [.stop] } : Engine) = e
  have hset : Carries (fun _ => 0) (s.setEngine b e) := by
    rw [← he]; exact carries_setEngine_xfer h rfl (h b).2.same
  have heng : (s.setEngine b e).engine b = e := (State.setEngine_engine ..).trans (if_pos rfl)
  split
  · split
    · rename_i t hx
      refine carries_retryOrFail b t dataLow hset ?_
      rw [begin_st, heng, ← he]
      exact (h b).2.requester_none (.inl (by rw [hx]; rfl))
    · rename_i hx
      unfold recovered
      dsimp only
      rw [Work.update_st, reportBus_st, Work.update_st, begin_st]
      generalize s.setEngine b e = u at hset heng ⊢
      have hxe : e.xfer = none := by rw [← he]; exact hx
      rw [State.setEngine_engine, if_pos rfl, heng, State.setEngine_setEngine]
      exact carries_setEngine_xfer hset (by rw [heng])
        ⟨fun _ => hxe, nofun, nofun, Nat.zero_le _⟩
  · exact carries_enterFault b hset

theorem splits_handOver {m : Nat} {stamp : Option Epoch} {q : List Entry}
    (hoff : ∀ e ∈ q, e.onBus = false) :
    ∃ front back, Splits (handOver m stamp q) front back := by
  refine ⟨_, _, rfl, fun e he => ?_, fun e he => hoff e (List.mem_of_mem_drop he)⟩
  obtain ⟨x, -, rfl⟩ := List.mem_map.mp he
  rfl

theorem carries_startTransfer (b : BusNo) (dataLow : Bool) (h : Carries (fun _ => 0) s)
    (hmay : s.mayStart b = true) : Carries (fun _ => 0) (startTransfer b dataLow s) := by
  have hidle : (s.engine b).state = .idle := by
    simp only [State.mayStart, Bool.and_eq_true, beq_iff_eq] at hmay
    exact hmay.1.1
  have hr := (h b).2.requester_none (.inr (by rw [hidle]; simp))
  have hoff : ∀ e ∈ s.queue b, e.onBus = false := by
    obtain ⟨⟨front, back, ⟨hsplit, -, hoff⟩, hlen⟩, hok⟩ := h b
    have hnil := List.length_eq_zero_iff.mp (hlen (hok.free (.inl hidle)))
    rw [hsplit, hnil]
    exact hoff
  unfold startTransfer
  split
  · exact h
  · dsimp only
    generalize runBehind _ _ = run
    generalize transferOf _ _ _ = t
    obtain ⟨hx, hok⟩ := beginAttempt_ok (t := t) (dataLow := dataLow)
      (e := { s.engine b with clock := (s.engine b).speed, sent := [] }) hr
    refine carries_quiet (fun c => ?_) (quiet_noteAttempts b (.refl _))
    generalize beginAttempt t dataLow _ = e at hx hok ⊢
    rw [State.setEngine_engine]
    change FrontOk _ ((s.setQueue b _).queue c) _ ∧ _
    rw [State.setQueue_queue]
    split
    · obtain ⟨front, back, hs⟩ := splits_handOver (m := run.length + 1) (stamp := s.gen.stamp) hoff
      refine ⟨⟨front, back, hs, fun hnone => ?_⟩, hok⟩
      rw [hnone] at hx
      cases hx
    · exact h c

/-- R136: a tick counts a stretch up to its limit. -/
theorem tick_ok {e : Engine} (held : Bool) (he : EngineOk e) :
    (e.tick held).xfer = e.xfer ∧ EngineOk (e.tick held) := by
  have hcounted : ∀ m : Nat, m ≤ 2 →
      EngineOk { e with stretching := true, stretchCount := m } :=
    fun m hm => ⟨he.free, he.busy, he.asked, hm⟩
  unfold Engine.tick
  split
  · exact ⟨rfl, he⟩
  · exact ⟨rfl, he⟩
  all_goals
    split
    · exact ⟨rfl, he⟩
    · rename_i hlimit
      split
      · refine ⟨rfl, hcounted _ ?_⟩
        have hle := he.stretch
        split
        · rename_i hstretching
          simp only [Engine.limitExceeded, hstretching, Bool.true_and, beq_iff_eq] at hlimit
          omega
        · omega
      · exact ⟨rfl, he.same⟩

theorem carries_tick (held0 held1 : Bool) (h : Carries (fun _ => 0) s) :
    Carries (fun _ => 0) (tick held0 held1 s) := by
  have hleases : Quiet s (allClients.foldl tickLease (begin s)).finish :=
    (quiet_books s).finish _ (foldl_keeps (fun w : Work => Quiet s w.st) tickLease
      (fun w k hw => by rw [tickLease_frame]; exact hw) allClients (begin s) (.refl s))
  unfold tick
  generalize (allClients.foldl tickLease (begin s)).finish = u at hleases ⊢
  have hu := carries_quiet h hleases
  dsimp only
  have h0 : Carries (fun _ => 0) (u.setEngine 0 ((u.engine 0).tick held0)) :=
    carries_setEngine_xfer hu (tick_ok held0 (hu 0).2).1 (tick_ok held0 (hu 0).2).2
  have h1 := carries_setEngine_xfer h0 (tick_ok held1 (h0 1).2).1 (tick_ok held1 (h0 1).2).2
  rw [State.setEngine_engine, if_neg (by decide)] at h1
  exact h1

theorem carries_putOnWires {b : BusNo} (items : List WireItem) (h : Carries n s) :
    Carries n (putOnWires b items s) := carries_setEngine_xfer h rfl (h b).2.same

/-- R131: while an attempt is in progress nobody waits for a recovery. -/
theorem requester_of_attempting {b : BusNo} {t : Transfer} (items : List WireItem)
    (h : Carries n s) (ha : (s.engine b).attempting = some t) :
    ((putOnWires b items s).engine b).requester = none := by
  have hx : (s.engine b).xfer = some t := by
    unfold Engine.attempting at ha
    split at ha
    · exact ha
    · cases ha
  rw [putOnWires, State.setEngine_engine, if_pos rfl]
  exact (h b).2.requester_none (.inl (by rw [hx]; rfl))

end

theorem transfers_events : EventLaw (Carries fun _ => 0) where
  tick _ held0 held1 h := carries_tick held0 held1 h
  lapse s k h := by
    refine carries_quiet h ?_
    rw [tickLease_frame]
    exact Quiet.refl s
  line s h := carries_quiet h ((quiet_schedule s).advanceLine (.refl s))
  windowOpen s _ h := carries_quiet h ((quiet_schedule s).handWindowOpen (.refl s))
  windowClose s _ h := carries_quiet h ((quiet_schedule s).handWindowClose (.refl s))
  epochEnd s _ h := carries_quiet h ((quiet_schedule s).endEpoch (.refl s))
  trigger s h := carries_quiet h ((quiet_schedule s).takeTrigger (.refl s))
  transferStart _ b dataLow hmay h := carries_startTransfer b dataLow h hmay
  nack _ b _ _ dataLow ha h := carries_retryOrFail b _ dataLow (carries_putOnWires _ h)
    (requester_of_attempting _ h ha)
  transferEnd _ b _ bytes ha h := carries_endTransfer b true bytes (carries_putOnWires _ h)
    (requester_of_attempting _ h ha) (.inl rfl)
  stretch _ b passed _ h := carries_exceedStretch b passed h
  recovery _ b lowLooks freed dataLow _ h := carries_endRecovery b lowLooks freed dataLow h
  stretchEnd _ b h := carries_setEngine_xfer h rfl (h b).2.same

/-! ### The requests -/

theorem transfers_requests : RequestLaw (Carries fun _ => 0) where
  defineSlot _ _ _ _ _ _ _ _ _ _ _ _ _ _ _ _ h := h
  undefineSlot _ _ _ _ _ _ h := h
  claim _ _ _ h := h
  token _ _ h := h
  setLease _ _ _ _ h := h
  openBatch _ _ _ _ _ _ _ _ _ _ h := h
  restaged _ _ _ _ _ _ h := h
  sealBatch _ _ _ _ _ _ _ _ _ _ h := h
  setGeometry _ _ _ _ _ _ _ _ h := h
  defineDevice _ _ _ _ _ _ h := h
  busSpeed _ b _ h := carries_setEngine_xfer h rfl (h b).2.same
  fetch _ _ _ h := h
  subscribe _ _ _ _ _ h := h
  detachEvents _ _ h := h

theorem quiet_append {s t : State} {b : BusNo} {e : Entry} (h : Quiet s t)
    (he : e.onBus = false) : Quiet s (append b e t) :=
  ite_keeps (fun _ => quiet_setQueue h (frontKept_append he)) h

theorem transfers_queueRequests : QueueRequestLaw (Carries fun _ => 0) where
  claims _ _ _ h := h
  dropOpen _ _ _ _ h := h
  cancel _ _ _ _ h := h
  writeNow s b i _ _ _ _ _ _ _ _ _ h :=
    carries_quiet h (quiet_append (quiet_supersede b i (w := begin s) (.refl s)) rfl)
  probe s b d k tag register width order _ _ h := by
    have ha := carries_quiet h (quiet_append (b := b)
      (e := probeEntry k tag d register width order) (.refl s) rfl)
    exact ha
  recover s b k hf h := by
    have hx : (s.engine b).xfer = none := (h b).2.free (.inr hf)
    have hfront := (h b).1
    rw [hx] at hfront
    exact carries_setEngine h (fun _ _ => rfl) hfront
      ⟨fun _ => rfl, by simp, fun _ => ⟨rfl, rfl⟩, Nat.zero_le _⟩

theorem reset_transfers : Carries (fun _ => 0) State.reset := by
  intro b
  have he : State.reset.engine b = Engine.reset := by
    rcases ScheduleEvents.bus_cases b with rfl | rfl <;> rfl
  rw [reset_queue, he]
  exact ⟨⟨[], [], ⟨rfl, nofun, nofun⟩, fun _ => rfl⟩, fun _ => rfl, nofun, nofun, Nat.zero_le _⟩

theorem transfers_kept : KeptByEveryStep (Carries fun _ => 0) := by
  have hbooks : TableLaw (Carries fun _ => 0) :=
    { host := fun s g h => carries_quiet h ((quiet_books s).host s g (.refl s))
      phase := fun s p h => carries_quiet h ((quiet_books s).phase s p (.refl s))
      pending := fun s l h => carries_quiet h ((quiet_books s).pending s l (.refl s))
      draws := fun s m h => carries_quiet h ((quiet_books s).draws s m (.refl s))
      lease := fun s k h => carries_quiet h ((quiet_books s).lease s k (.refl s))
      offer := fun s o h => carries_quiet h ((quiet_books s).offer s o (.refl s)) }
  refine keptByEveryStep_of_effects hbooks transfers_events (fun e h => ?_) reset_transfers
  refine effect_keeps transfers_requests transfers_queueRequests (fun k m epoch s w _ hw h => ?_)
    (fun k o s h => ?_) (fun s h => ?_) (fun k s h => ?_) hbooks.draws e h
  · have hprimed : Quiet s w.st := by
      rw [hw]; exact (quiet_schedule s).startPrimed k m epoch (.refl s)
    exact ⟨carries_quiet h hprimed, carries_quiet h ((quiet_schedule s).endPriming hprimed)⟩
  · exact carries_quiet h ((quiet_schedule s).stopSchedule k o (.refl s))
  · exact carries_quiet h (quiet_resetTables ((quiet_schedule s).setIssuer none
      ((quiet_schedule s).enterStopped (.refl s))))
  · have hb : Quiet s (detachBatch k (detachClaims k s)) := by
      rw [detachClaims_frame]
      unfold detachBatch
      split
      · exact Quiet.refl s
      · exact Quiet.refl s
    exact carries_quiet h (quiet_detachQueue k _ 1 (quiet_detachQueue k _ 0 hb))

/-- Settles O58: the entries of a transfer stay in front until its end lets them leave one by one. -/
theorem everyStepKeepsTransfers : Obligations.EveryStepKeepsTransfers := by
  have hsame : TransfersWithinRules = Carries fun _ => 0 :=
    funext fun _ => propext transfers_iff
  unfold Obligations.EveryStepKeepsTransfers
  rw [hsame]
  exact transfers_kept

end Sys2Proof.TransferLaw
end


section
/-! PROOFS. Which commands change the standing tables: the descriptors and devices, the geometry, the bus
speeds, the subscriptions, the claims, C and the framing locks. -/

set_option Elab.async false

namespace Sys2Proof.StandingTables

open Sys2Proof Sys2Proof.Machine Sys2Proof.Commands Sys2Proof.Rules Sys2Proof.Effects
open Sys2Proof.Schedule Sys2Proof.Carrying Sys2Proof.Leases Sys2Proof.Pieces
open Sys2Proof.PieceRequests Sys2Proof.TableLaws Sys2Proof.PortLaw

/-- Settles O59: each law's own proof for the state after reset. -/
theorem resetIsWithinEveryRule : Obligations.ResetIsWithinEveryRule :=
  ⟨reset_capacity, reset_events, (generatorWithinRules_iff _).mpr reset_genOk, reset_outputsOk,
    reset_ports, reset_claims, Books.reset_batches, LocalSlots.reset_locals,
    TableContents.reset_values, TableContents.reset_dangles,
    QueueLaw.queuesWithinRules_iff.mpr
      ⟨QueueSteps.reset_orderly.1.2.2, QueueSteps.reset_orderly.2⟩,
    TransferLaw.transfers_iff.mpr TransferLaw.reset_transfers⟩

/-! ### The tables that no event changes -/

/-- R88: the five items of the geometry. -/
def geometry (g : Generator) : Nat × Nat × Nat × Nat × Edge :=
  (g.lspan, g.vspan, g.wopen, g.wclose, g.edge)

/-- Section 10.4: what a client subscribes to. -/
def subscriptions (q : EventQueue) : Bool × Bool × Bool × Nat := (q.sched, q.bus, q.mark, q.divider)

/-- The descriptors, the devices, the geometry, the speeds and the subscriptions stay. -/
structure SameTables (s t : State) : Prop where
  frame : frameOf t = frameOf s
  geometry : geometry t.gen = geometry s.gen
  speed : ∀ b : BusNo, (t.engine b).speed = (s.engine b).speed
  subscriptions : ∀ j : Client, subscriptions (t.eventQueue j) = subscriptions (s.eventQueue j)

theorem SameTables.refl (s : State) : SameTables s s := ⟨rfl, rfl, fun _ => rfl, fun _ => rfl⟩

theorem SameTables.trans {s t u : State} (h : SameTables s t) (g : SameTables t u) :
    SameTables s u :=
  ⟨g.frame.trans h.frame, g.geometry.trans h.geometry, fun b => (g.speed b).trans (h.speed b),
    fun j => (g.subscriptions j).trans (h.subscriptions j)⟩

/-- A move that writes none of these tables. -/
theorem SameTables.step {s t u : State} (h : SameTables s t) (hf : frameOf u = frameOf t := by rfl)
    (hg : StandingTables.geometry u.gen = StandingTables.geometry t.gen := by rfl)
    (hb : ∀ b : BusNo, (u.engine b).speed = (t.engine b).speed := by exact fun _ => rfl)
    (he : ∀ j : Client, StandingTables.subscriptions (u.eventQueue j) =
      StandingTables.subscriptions (t.eventQueue j) := by exact fun _ => rfl) : SameTables s u :=
  h.trans ⟨hf, hg, hb, he⟩

theorem geometry_genMove {g g' : Generator} (h : GenMove g g') : geometry g' = geometry g := by
  obtain ⟨h1, h2, h3, h4, h5⟩ := h.geometry
  unfold geometry
  rw [h1, h2, h3, h4, h5]

theorem subscriptions_take (q : EventQueue) (c : Epoch) (e : Event) :
    subscriptions (q.take c e) = subscriptions q := by
  obtain ⟨h1, h2, h3, h4, -⟩ := EventQueue.take_subscriptions q c e
  unfold subscriptions
  rw [h1, h2, h3, h4]

theorem subscriptions_advanceMark (q : EventQueue) :
    subscriptions q.advanceMark = subscriptions q := by
  unfold EventQueue.advanceMark
  split <;> rfl

theorem subscriptions_fetch (q : EventQueue) (n : Nat) (c : Epoch) :
    subscriptions (q.fetch n c) = subscriptions q := by
  unfold EventQueue.fetch
  dsimp only
  split
  · rfl
  · exact subscriptions_take { q with records := q.records.drop n } c (.overflow q.lost)

theorem subscriptions_setEventQueue {s : State} {k : Client} {q : EventQueue}
    (h : subscriptions q = subscriptions (s.eventQueue k)) (j : Client) :
    subscriptions ((s.setEventQueue k q).eventQueue j) = subscriptions (s.eventQueue j) := by
  rw [State.setEventQueue_eventQueue]
  split
  · rename_i hkj; subst hkj; exact h
  · rfl

theorem sameTables_pieces (s : State) : PieceLaw (frameOf s) (fun _ => True) (fun _ => True)
    (SameTables s) where
  host _ _ h := h.step
  phase _ _ h := h.step
  pending _ _ h := h.step
  draws _ _ h := h.step
  lease _ _ h := h.step
  offer t o h := h.step (he := subscriptions_setEventQueue (s := t) (subscriptions_take _ _ _))
  batch _ _ _ _ _ h := h.step
  sealList _ _ h := h.step
  unstore _ _ h := h.step
  frame _ h := h.frame
  good _ _ _ _ := trivial
  goodSlot _ _ _ _ := trivial
  gen _ _ hg h := h.step (hg := geometry_genMove hg)
  primes _ _ h := h.step
  outputs _ _ h := h.step
  marks t h := h.step (he := fun j => by
    rw [ScheduleEvents.advanceMarks_eventQueue]; exact subscriptions_advanceMark _)
  probes _ _ _ h := h.step
  queue _ _ _ _ h := h.step
  write _ _ _ _ _ _ _ _ _ h := h.step
  prime _ _ _ _ _ _ _ _ h := h.step
  recordState _ _ _ h := h.step
  applyLocal _ _ _ _ h := h.step (hf := frameOf_applyLocal _ _)
  complete t b e rest done _ h := by
    refine h.step (frameOf_completeSlot ..) ?_ (fun c => ?_) fun j => ?_
    · rw [completeSlot_gen]; rfl
    · unfold State.engine; rw [completeSlot_buses]; rfl
    · unfold State.eventQueue; rw [completeSlot_events]; rfl
  engine t b e he h := by
    refine h.step (hb := fun c => ?_)
    rw [State.setEngine_engine]
    split
    · rename_i hbc; subst hbc; exact he
    · rfl
  claims _ _ _ h := h.step
  dropOpen _ _ _ _ h := h.step

theorem sameTables_detach (k : Client) (s : State) : SameTables s (detachTables k s) :=
  (sameTables_pieces s).opLaw.detachTables k ((sameTables_pieces s).detachBatch k (.refl s))

/-- The one write that a request makes to one of these tables. -/
inductive Written (s : State) : Instr → State → Prop
  | nothing (i : Instr) : Written s i s
  | defineSlot (k : Client) (tag slot device : Byte) (register : Half) (format kind : Byte)
      (min max initial : Value) (r : Slot) :
      Written s (.defineSlot k tag slot device register format kind min max initial)
        (s.setSlot (slotNo slot) r)
  | undefineSlot (k : Client) (tag slot : Byte) (r : Slot) :
      Written s (.undefineSlot k tag slot) (s.setSlot (slotNo slot) r)
  | setGeometry (k : Client) (tag : Byte) (lspan vspan wopen wclose : Half) (edge : Byte)
      (g : Generator) :
      Written s (.setGeometry k tag lspan vspan wopen wclose edge) (s.setGen g)
  | defineDevice (k : Client) (tag device state bus address size retries : Byte) (d : DeviceNo)
      (r : Device) : Written s (.defineDevice k tag device state bus address size retries)
        (s.setDevice d r)
  | busConfig (k : Client) (tag bus speed : Byte) (b : BusNo) (e : Engine) :
      Written s (.busConfig k tag bus speed) (s.setEngine b e)
  | subscribe (k : Client) (tag set divider : Byte) (q : EventQueue) :
      Written s (.subscribe k tag set divider) (s.setEventQueue k q)
  | detach (k : Client) (tag : Byte) (q : EventQueue) :
      Written s (.detach k tag) (s.setEventQueue k q)

theorem effect_written {i : Instr} {s t : State} (e : Effect s i t) :
    ∃ u, Written s i u ∧ SameTables u t := by
  have L := sameTables_pieces s
  have h := SameTables.refl s
  cases e with
  | defineSlot => exact ⟨_, .defineSlot .., .refl _⟩
  | undefineSlot => exact ⟨_, .undefineSlot .., (SameTables.refl _).step⟩
  | @setGeometry _ _ lspan vspan wopen wclose _ e =>
    exact ⟨_, .setGeometry _ _ _ _ _ _ _ { s.gen with
      lspan := lspan.toNat, vspan := vspan.toNat, wopen := wopen.toNat, wclose := wclose.toNat,
      edge := e }, .refl _⟩
  | defineDevice => exact ⟨_, .defineDevice .., .refl _⟩
  | busConfig => exact ⟨_, .busConfig .., .refl _⟩
  | subscribe => exact ⟨_, .subscribe .., .refl _⟩
  | @detach k tag =>
    refine ⟨_, .detach k tag ((detachTables k s).eventQueue k).detach, ?_⟩
    obtain ⟨hf, hg, hb, hj⟩ := sameTables_detach k s
    rw [detachClient_eq]
    generalize detachTables k s = u at hf hg hb hj ⊢
    refine ⟨hf, hg, hb, fun j => ?_⟩
    rw [State.setEventQueue_eventQueue, State.setEventQueue_eventQueue]
    split
    · rfl
    · exact hj j
  | reports | draws | claim | release | revoke | claimSchedule | releaseSchedule | setLease
  | openBatch | restaged | abort | sealBatch | cancel => exact ⟨_, .nothing _, h.step⟩
  | @writeNow _ _ slot _ _ b =>
    have hs := L.supersede b (slotNo slot) (w := begin s) h
    exact ⟨_, .nothing _, append_keeps hs fun _ => hs.step⟩
  | start _ _ hw =>
    rw [hw]; exact ⟨_, .nothing _, L.opLaw.schedule.startPrimed _ _ _ h⟩
  | startAtOnce _ _ hw =>
    rw [hw]
    exact ⟨_, .nothing _, L.opLaw.schedule.endPriming (L.opLaw.schedule.startPrimed _ _ _ h)⟩
  | stop => exact ⟨_, .nothing _, L.opLaw.schedule.stopSchedule _ _ h⟩
  | resetSchedule => exact ⟨_, .nothing _, L.opLaw.resetSchedule h⟩
  | @readDevice k tag _ register width _ d o =>
    have ha : SameTables s (append (s.device d).bus (probeEntry k tag d register width.toNat o) s) :=
      append_keeps h fun _ => h.step
    exact ⟨_, .nothing _, ha.step⟩
  | busRecover => exact ⟨_, .nothing _, L.engine s _ _ rfl h⟩
  | fetch =>
    exact ⟨_, .nothing _, h.step (he := subscriptions_setEventQueue (subscriptions_fetch _ _ _))⟩

/-! ### A law that rests on these tables -/

section
variable {P : State → Prop} (hP : ∀ u v, SameTables u v → P u → P v)
include hP

theorem tableLaw_of_sameTables : TableLaw P where
  host u g h := hP _ _ ((sameTables_pieces u).host u g (.refl u)) h
  phase u p h := hP _ _ ((sameTables_pieces u).phase u p (.refl u)) h
  pending u l h := hP _ _ ((sameTables_pieces u).pending u l (.refl u)) h
  draws u n h := hP _ _ ((sameTables_pieces u).draws u n (.refl u)) h
  lease u k h := hP _ _ ((sameTables_pieces u).lease u k (.refl u)) h
  offer u o h := hP _ _ ((sameTables_pieces u).offer u o (.refl u)) h

/-- No event changes these tables. -/
theorem eventLaw_of_sameTables : EventLaw P where
  tick u a b h := hP _ _ ((sameTables_pieces u).opLaw.eventLaw.tick u a b (.refl u)) h
  lapse u k h := hP _ _ ((sameTables_pieces u).opLaw.eventLaw.lapse u k (.refl u)) h
  line u h := hP _ _ ((sameTables_pieces u).opLaw.eventLaw.line u (.refl u)) h
  windowOpen u hd h := hP _ _ ((sameTables_pieces u).opLaw.eventLaw.windowOpen u hd (.refl u)) h
  windowClose u hd h := hP _ _ ((sameTables_pieces u).opLaw.eventLaw.windowClose u hd (.refl u)) h
  epochEnd u hr h := hP _ _ ((sameTables_pieces u).opLaw.eventLaw.epochEnd u hr (.refl u)) h
  trigger u h := hP _ _ ((sameTables_pieces u).opLaw.eventLaw.trigger u (.refl u)) h
  transferStart u b d hm h :=
    hP _ _ ((sameTables_pieces u).opLaw.eventLaw.transferStart u b d hm (.refl u)) h
  nack u b t n d ha h := hP _ _ ((sameTables_pieces u).opLaw.eventLaw.nack u b t n d ha (.refl u)) h
  transferEnd u b t bytes ha h :=
    hP _ _ ((sameTables_pieces u).opLaw.eventLaw.transferEnd u b t bytes ha (.refl u)) h
  stretch u b p hl h := hP _ _ ((sameTables_pieces u).opLaw.eventLaw.stretch u b p hl (.refl u)) h
  recovery u b l f d hs h :=
    hP _ _ ((sameTables_pieces u).opLaw.eventLaw.recovery u b l f d hs (.refl u)) h
  stretchEnd u b h := hP _ _ ((sameTables_pieces u).opLaw.eventLaw.stretchEnd u b (.refl u)) h

/-- A law that rests on these tables is kept by every command whose one write keeps it. -/
theorem exec_written {i : Instr} {s t : State} (hi : ∀ u v, Written u i v → P u → P v)
    (hreset : ∀ cause, i ≠ .pinReset cause) (hs : P s) (h : exec i s = .next t) : P t := by
  refine exec_keeps (tableLaw_of_sameTables hP) (commandKeeps_of_effects
    (eventLaw_of_sameTables hP) (fun {u v} e hu => ?_) fun cause hc => absurd hc (hreset cause)) hs h
  obtain ⟨m, hm, hsame⟩ := effect_written e
  exact hP m v hsame (hi u m hm hu)

end

section
variable {i : Instr} {s t : State}

/-- Section 7.1: DEFINE_DEVICE alone writes the device table. -/
theorem devices_change (h : exec i s = .next t) (hreset : ∀ cause, i ≠ .pinReset cause)
    (hne : t.buses.device ≠ s.buses.device) : ∃ k tag device state bus address size retries,
      i = .defineDevice k tag device state bus address size retries := by
  by_contra hi
  refine hne (exec_written (P := fun u => u.buses.device = s.buses.device)
    (fun u v g hu => (congrArg Frame.device g.frame).trans hu) (fun u v w hu => ?_) hreset rfl h)
  cases w with
  | defineDevice => exact absurd ⟨_, _, _, _, _, _, _, _, rfl⟩ hi
  | _ => exact hu

/-- Section 5.2: SET_GEOMETRY alone writes the geometry. -/
theorem geometry_change (h : exec i s = .next t) (hreset : ∀ cause, i ≠ .pinReset cause)
    (hne : geometry t.gen ≠ geometry s.gen) : ∃ k tag lspan vspan wopen wclose edge,
      i = .setGeometry k tag lspan vspan wopen wclose edge := by
  by_contra hi
  refine hne (exec_written (P := fun u => geometry u.gen = geometry s.gen)
    (fun u v g hu => g.geometry.trans hu) (fun u v w hu => ?_) hreset rfl h)
  cases w with
  | setGeometry => exact absurd ⟨_, _, _, _, _, _, _, rfl⟩ hi
  | _ => exact hu

/-- Section 7.1: BUS_CONFIG alone writes a bus speed. -/
theorem speed_change {b : BusNo} (h : exec i s = .next t) (hreset : ∀ cause, i ≠ .pinReset cause)
    (hne : (t.engine b).speed ≠ (s.engine b).speed) :
    ∃ k tag bus speed, i = .busConfig k tag bus speed := by
  by_contra hi
  refine hne (exec_written (P := fun u => (u.engine b).speed = (s.engine b).speed)
    (fun u v g hu => (g.speed b).trans hu) (fun u v w hu => ?_) hreset rfl h)
  cases w with
  | busConfig => exact absurd ⟨_, _, _, _, rfl⟩ hi
  | _ => exact hu

/-- Sections 10.4 and 10.7: a client's SUBSCRIBE and its DETACH alone write its subscriptions. -/
theorem subscriptions_change {j : Client} (h : exec i s = .next t)
    (hreset : ∀ cause, i ≠ .pinReset cause)
    (hne : subscriptions (t.eventQueue j) ≠ subscriptions (s.eventQueue j)) :
    (∃ tag set divider, i = .subscribe j tag set divider) ∨ ∃ tag, i = .detach j tag := by
  by_contra hi
  refine hne (exec_written
    (P := fun u => subscriptions (u.eventQueue j) = subscriptions (s.eventQueue j))
    (fun u v g hu => (g.subscriptions j).trans hu) (fun u v w hu => ?_) hreset rfl h)
  cases w with
  | subscribe k tag set divider q =>
    rw [State.setEventQueue_eventQueue, if_neg]
    · exact hu
    · rintro rfl; exact hi (.inl ⟨_, _, _, rfl⟩)
  | detach k tag q =>
    rw [State.setEventQueue_eventQueue, if_neg]
    · exact hu
    · rintro rfl; exact hi (.inr ⟨_, rfl⟩)
  | _ => exact hu

/-- Section 1.5: DEFINE_SLOT and UNDEFINE_SLOT alone write a slot's descriptor. -/
theorem descriptor_change {n : SlotNo} (h : exec i s = .next t)
    (hreset : ∀ cause, i ≠ .pinReset cause)
    (hne : descriptor (t.slot n) ≠ descriptor (s.slot n)) :
    (∃ k tag slot device register format kind min max initial,
      i = .defineSlot k tag slot device register format kind min max initial ∧ slotNo slot = n) ∨
    ∃ k tag slot, i = .undefineSlot k tag slot ∧ slotNo slot = n := by
  by_contra hi
  refine hne (exec_written (P := fun u => descriptor (u.slot n) = descriptor (s.slot n))
    (fun u v g hu => (congrArg (fun F : Frame => F.slot n) g.frame).trans hu)
    (fun u v w hu => ?_) hreset rfl h)
  cases w with
  | defineSlot =>
    rw [State.setSlot_slot, if_neg]
    · exact hu
    · exact fun hn => hi (.inl ⟨_, _, _, _, _, _, _, _, _, _, rfl, hn⟩)
  | undefineSlot =>
    rw [State.setSlot_slot, if_neg]
    · exact hu
    · exact fun hn => hi (.inr ⟨_, _, _, rfl, hn⟩)
  | _ => exact hu

end

/-! ### Claims, C and locks -/

/-- A law is kept by a command that is no event of the tables when the request's effect keeps it. -/
theorem commandKeeps_of_requests {P : State → Prop} {i : Instr}
    (R : ∀ {s t}, Effect s i t → P s → P t) (hevent : isTableEvent i = false)
    (hreset : ∀ cause, i ≠ .pinReset cause) : CommandKeeps P i := by
  cases hk : requestClient i with
  | some k => exact (commandKeeps_request hk).mpr fun s hs => R (ruleOf_effect i s) hs
  | none =>
    cases i with
    | pinReset cause => exact absurd rfl (hreset cause)
    | pollNone | messageTaken | messageRefused | readTransaction | framingDetection | resetRelease
    | startupEnd | twoWireCodeByte | fourWireFrameStart => trivial
    | housekeepingTick | leaseLapse | lineAdvance | windowOpen | windowClose | epochEnd | trigger
    | transferStart | attemptNack | transferEnd | stretchLimitExceeded | recoveryEnd | stretchEnd =>
      cases hevent
    | _ => cases hk

/-- What a request does to the owners and the token. -/
inductive ClaimWrite (s t : State) : Instr → Prop
  | same (i : Instr) : t.claims.owner = s.claims.owner → t.claims.token = s.claims.token →
      ClaimWrite s t i
  | claim (k : Client) (tag first count : Byte) : t.claims.token = s.claims.token →
      ClaimWrite s t (.claim k tag first count)
  | release (k : Client) (tag first count : Byte) : t.claims.token = s.claims.token →
      ClaimWrite s t (.release k tag first count)
  | revoke (k : Client) (tag named : Byte) : t.claims.token = s.claims.token →
      ClaimWrite s t (.revoke k tag named)
  | undefineSlot (k : Client) (tag slot : Byte) : t.claims.token = s.claims.token →
      ClaimWrite s t (.undefineSlot k tag slot)
  | claimSchedule (k : Client) (tag : Byte) : t.claims.owner = s.claims.owner →
      ClaimWrite s t (.claimSchedule k tag)
  | releaseSchedule (k : Client) (tag : Byte) : t.claims.owner = s.claims.owner →
      ClaimWrite s t (.releaseSchedule k tag)
  | detach (k : Client) (tag : Byte) : ClaimWrite s t (.detach k tag)

theorem claimWrite_of_claims {s t : State} (i : Instr) (h : t.claims = s.claims) :
    ClaimWrite s t i := .same i (by rw [h]) (by rw [h])

theorem effect_claims {i : Instr} {s t : State} (e : Effect s i t) : ClaimWrite s t i := by
  cases e with
  | claim => exact .claim _ _ _ _ rfl
  | release => exact .release _ _ _ _ rfl
  | revoke => exact .revoke _ _ _ rfl
  | undefineSlot => exact .undefineSlot _ _ _ rfl
  | claimSchedule => exact .claimSchedule _ _ rfl
  | releaseSchedule => exact .releaseSchedule _ _ rfl
  | detach => exact .detach _ _
  | setLease => exact .same _ rfl rfl
  | writeNow =>
    exact claimWrite_of_claims _ ((append_claims ..).trans (supersede_claims ..))
  | start _ _ hw => rw [hw]; exact claimWrite_of_claims _ (sameHost_startPrimed ..).2
  | startAtOnce _ _ hw =>
    rw [hw]
    exact claimWrite_of_claims _ ((endPriming_claims _).trans (sameHost_startPrimed ..).2)
  | stop => exact claimWrite_of_claims _ (sameHost_stopSchedule ..).2
  | resetSchedule => exact claimWrite_of_claims _ (sameHost_resetSchedule s).2
  | readDevice => exact claimWrite_of_claims _ (append_claims ..)
  | _ => exact claimWrite_of_claims _ rfl

/-- Chapter 2: a part of the claims that a lease's reload leaves is changed by a request that writes it, by
the tick or by a lapse. -/
theorem claims_change {β : Type} {part : ClaimTable → β} {i : Instr} {s t : State}
    (hlease : ∀ (u : State) (k : Client), part (reloadLease k u).claims = part u.claims)
    (h : exec i s = .next t) (hreset : ∀ cause, i ≠ .pinReset cause)
    (hne : part t.claims ≠ part s.claims) :
    (∃ u v, Effect u i v ∧ part v.claims ≠ part u.claims) ∨
      (∃ h0 h1, i = .housekeepingTick h0 h1) ∨ ∃ k, i = .leaseLapse k := by
  by_contra hi
  rw [not_or, not_or] at hi
  obtain ⟨hrequest, htick, hlapse⟩ := hi
  refine hne ?_
  cases hevent : isTableEvent i with
  | true =>
    rw [(sameHost_event h hevent (fun h0 h1 e => htick ⟨h0, h1, e⟩) fun k e => hlapse ⟨k, e⟩).2]
  | false =>
    have L : TableLaw (fun u => part u.claims = part s.claims) :=
      tableLaw_part (part := fun u => part u.claims) _ (fun _ _ => rfl) (fun _ _ => rfl)
        (fun _ _ => rfl) (fun _ _ => rfl) hlease fun _ _ => rfl
    refine exec_keeps L (commandKeeps_of_requests (fun {u v} e hu => ?_) hevent hreset) rfl h
    by_contra hv
    exact hrequest ⟨u, v, e, fun heq => hv (heq.trans hu)⟩

theorem token_change {i : Instr} {s t : State} (h : exec i s = .next t)
    (hreset : ∀ cause, i ≠ .pinReset cause) (hne : t.claims.token ≠ s.claims.token) :
    (∃ k tag, i = .claimSchedule k tag) ∨ (∃ k tag, i = .releaseSchedule k tag) ∨
      (∃ k tag, i = .detach k tag) ∨ (∃ h0 h1, i = .housekeepingTick h0 h1) ∨
      ∃ k, i = .leaseLapse k := by
  rcases claims_change (part := ClaimTable.token) (fun _ _ => rfl) h hreset hne with
    ⟨u, v, e, hv⟩ | htick
  · cases effect_claims e with
    | claimSchedule k tag => exact .inl ⟨k, tag, rfl⟩
    | releaseSchedule k tag => exact .inr (.inl ⟨k, tag, rfl⟩)
    | detach k tag => exact .inr (.inr (.inl ⟨k, tag, rfl⟩))
    | same _ _ ht => exact absurd ht hv
    | claim _ _ _ _ ht => exact absurd ht hv
    | release _ _ _ _ ht => exact absurd ht hv
    | revoke _ _ _ ht => exact absurd ht hv
    | undefineSlot _ _ _ ht => exact absurd ht hv
  · exact .inr (.inr (.inr htick))

theorem owner_change {i : Instr} {s t : State} (h : exec i s = .next t)
    (hreset : ∀ cause, i ≠ .pinReset cause) (hne : t.claims.owner ≠ s.claims.owner) :
    (∃ k tag first count, i = .claim k tag first count) ∨
      (∃ k tag first count, i = .release k tag first count) ∨
      (∃ k tag named, i = .revoke k tag named) ∨ (∃ k tag slot, i = .undefineSlot k tag slot) ∨
      (∃ k tag, i = .detach k tag) ∨ (∃ h0 h1, i = .housekeepingTick h0 h1) ∨
      ∃ k, i = .leaseLapse k := by
  rcases claims_change (part := ClaimTable.owner) (fun _ _ => rfl) h hreset hne with
    ⟨u, v, e, hv⟩ | htick
  · cases effect_claims e with
    | claim k tag first count => exact .inl ⟨k, tag, first, count, rfl⟩
    | release k tag first count => exact .inr (.inl ⟨k, tag, first, count, rfl⟩)
    | revoke k tag named => exact .inr (.inr (.inl ⟨k, tag, named, rfl⟩))
    | undefineSlot k tag slot => exact .inr (.inr (.inr (.inl ⟨k, tag, slot, rfl⟩)))
    | detach k tag => exact .inr (.inr (.inr (.inr (.inl ⟨k, tag, rfl⟩))))
    | same _ ho => exact absurd ho hv
    | claimSchedule _ _ ho => exact absurd ho hv
    | releaseSchedule _ _ ho => exact absurd ho hv
  · exact .inr (.inr (.inr (.inr (.inr htick))))

/-! ### C -/

/-- R99: a failed transfer ends priming, but in no epoch. -/
theorem failedMoves_c {g g' : Generator} (m : Relation.ReflTransGen (PrimingMove false) g g') :
    g'.c = g.c ∧ (g'.run = .priming → g'.primesOutstanding = g.primesOutstanding) := by
  induction m with
  | refl => exact ⟨rfl, fun _ => rfl⟩
  | tail _ m ih =>
    cases m with
    | place => exact ih
    | count hd => cases hd
    | close hd => cases hd
    | fail => exact ⟨ih.1, nofun⟩

theorem endTransfer_failed_c (b : BusNo) (next : EngineState) (w : Work) :
    (endTransfer b false [] next w).st.gen.c = w.st.gen.c := by
  obtain ⟨g, hg, e | ⟨-, hsome, hrun, hnone, -⟩⟩ := endTransfer_gen b false [] next w
  · rw [e]; exact (failedMoves_c hg).1
  · have := (failedMoves_c hg).2 hrun
    omega

theorem retryOrFail_c (b : BusNo) (t : Transfer) (dataLow : Bool) (w : Work) :
    (retryOrFail b t dataLow w).st.gen.c = w.st.gen.c := by
  unfold retryOrFail
  split
  · exact congrArg Generator.c (noteAttempts_gen ..)
  · exact endTransfer_failed_c ..

theorem enterFault_c (b : BusNo) (w : Work) : (enterFault b w).st.gen.c = w.st.gen.c := by
  unfold enterFault
  dsimp only
  rw [Work.update_st, State.setEngine_gen, reportBus_st]
  split
  · exact endTransfer_failed_c ..
  · rfl

theorem exceedStretch_c (b : BusNo) (passed : Nat) (s : State) :
    (exceedStretch b passed s).st.gen.c = s.gen.c := by
  unfold exceedStretch
  split
  · exact congrArg Generator.c (noteAttempts_gen ..)
  · exact enterFault_c ..
  · rfl

theorem endRecovery_c (b : BusNo) (lowLooks : Nat) (freed dataLow : Bool) (s : State) :
    (endRecovery b lowLooks freed dataLow s).st.gen.c = s.gen.c := by
  unfold endRecovery
  dsimp only
  split
  · split
    · exact retryOrFail_c ..
    · unfold recovered
      dsimp only
      rw [Work.update_st, State.setEngine_gen, reportBus_st]
      rfl
  · exact enterFault_c ..

theorem effect_c {i : Instr} {s t : State} (e : Effect s i t)
    (hi : ∀ k tag mode epoch, i ≠ .start k tag mode epoch) : t.gen.c = s.gen.c := by
  cases e with
  | start => exact (hi _ _ _ _ rfl).elim
  | startAtOnce => exact (hi _ _ _ _ rfl).elim
  | writeNow => exact congrArg Generator.c ((append_gen ..).trans (supersede_gen ..))
  | stop =>
    unfold stopSchedule
    split
    · rfl
    · rfl
    · rw [setIssuer_gen, enterStopped_gen, abandonPrimes_gen]
    · rw [setIssuer_gen, enterStopped_gen]
  | resetSchedule =>
    rw [State.draw_gen, State.draw_gen, resetBatchesAndStore_gen, begin_st, State.draw_gen,
      resetQueueEntries_gen, setIssuer_gen, enterStopped_gen]
  | readDevice => exact congrArg Generator.c (append_gen ..)
  | detach =>
    obtain ⟨l, -, hl⟩ := detachClient_gen _ s
    rw [hl]
  | _ => rfl

theorem settleWindow_c (s : State) : (settleWindow s).gen.c = s.gen.c := by
  rcases settleWindow_gen s with e | ⟨-, v, e⟩ <;> rw [e]

/-- Sections 5.3 to 5.5: C is written by START, the end of an epoch, a trigger and the end of a transfer
that ends priming. -/
theorem c_change {i : Instr} {s t : State} (h : exec i s = .next t)
    (hreset : ∀ cause, i ≠ .pinReset cause) (hne : t.gen.c ≠ s.gen.c) :
    (∃ k tag mode epoch, i = .start k tag mode epoch) ∨ i = .epochEnd ∨
      (∃ edge heldFor, i = .trigger edge heldFor) ∨
      ∃ b r0 r1 r2 r3, i = .transferEnd b r0 r1 r2 r3 := by
  have L : TableLaw (fun u => u.gen.c = s.gen.c) :=
    tableLaw_part (part := fun u => u.gen.c) _ (fun _ _ => rfl) (fun _ _ => rfl)
      (fun _ _ => rfl) (fun _ _ => rfl) (fun _ _ => rfl) fun _ _ => rfl
  by_contra hi
  rw [not_or, not_or, not_or] at hi
  obtain ⟨hstart, hend, htrigger, htransfer⟩ := hi
  refine hne (exec_keeps L ?_ rfl h)
  cases hevent : isTableEvent i with
  | false =>
    exact commandKeeps_of_requests
      (fun e hu => (effect_c e fun k tag mode epoch he => hstart ⟨k, tag, mode, epoch, he⟩).trans hu)
      hevent hreset
  | true =>
    cases i with
    | housekeepingTick h0 h1 => exact fun u hu => (congrArg Generator.c (tick_gen h0 h1 u)).trans hu
    | leaseLapse k => exact fun u hu => (congrArg Generator.c (tickLease_gen (begin u) k)).trans hu
    | lineAdvance =>
      intro u hu
      refine ite_keeps (P := fun v : State => v.gen.c = s.gen.c) (fun _ => ?_) hu
      exact (settleWindow_c u).trans hu
    | windowOpen => exact fun _ _ hu => hu
    | windowClose => exact fun _ _ hu => hu
    | epochEnd => exact absurd rfl hend
    | trigger edge heldFor => exact absurd ⟨_, _, rfl⟩ htrigger
    | transferStart b dataLow =>
      exact fun u _ hu => (congrArg Generator.c (startTransfer_gen b dataLow u)).trans hu
    | attemptNack b nack => exact fun u _ _ hu => (retryOrFail_c ..).trans hu
    | transferEnd => exact absurd ⟨_, _, _, _, _, rfl⟩ htransfer
    | stretchLimitExceeded stretch => exact fun u _ hu => (exceedStretch_c ..).trans hu
    | recoveryEnd => exact fun u _ hu => (endRecovery_c ..).trans hu
    | stretchEnd => exact fun _ hu => hu
    | _ => cases hevent

/-! ### Framing locks (R154) -/

/-- A lock that is set in `s` is the same in `t`. -/
def LocksKept (s t : State) : Prop :=
  ∀ k : Client, (s.port k).lock ≠ .undetermined → (t.port k).lock = (s.port k).lock

section
variable {s t : State}

theorem locks_same {u : State} (h : LocksKept s t) (hh : u.host = t.host) : LocksKept s u := by
  unfold LocksKept State.port
  rw [hh]
  exact h

theorem locks_setPort {k : Client} {p : Port} (h : LocksKept s t)
    (hp : (t.port k).lock ≠ .undetermined → p.lock = (t.port k).lock) :
    LocksKept s (t.setPort k p) := by
  intro j hj
  rw [State.setPort_port]
  split
  · rename_i hkj
    subst hkj
    exact (hp (by rw [h k hj]; exact hj)).trans (h k hj)
  · exact h j hj

/-- A port that keeps its lock. -/
theorem locks_setPort_same {k : Client} {p : Port} (h : LocksKept s t)
    (hp : p.lock = (t.port k).lock := by rfl) : LocksKept s (t.setPort k p) :=
  locks_setPort h fun _ => hp

theorem locks_grantNext (h : LocksKept s t) : LocksKept s (grantNext t) := by
  rcases grantNext_cases t with e | ⟨k, -, -, e⟩
  · rwa [e]
  · rw [e]; exact h

theorem locks_endMessage {k : Client} {bytes : List Byte} {taken later : Bool}
    (h : LocksKept s t) : LocksKept s (endMessage k bytes taken later t) := by
  have hreload : LocksKept s (reloadLease k t) := locks_same h rfl
  rcases endMessage_cases k bytes taken later t with
    ⟨-, e⟩ | ⟨-, -, ⟨-, e⟩ | ⟨-, e⟩ | ⟨-, u, rfl, e⟩⟩ <;> rw [e]
  · exact hreload
  · exact locks_setPort_same hreload
  · exact locks_setPort_same hreload
  · have htaken : LocksKept s ((reloadLease k t).setPort k { t.port k with
        state := .working, request := some bytes,
        response := responseBytes { status := .working } (bytes.getD 1 0) (bytes.getD 0 0) }) :=
      locks_setPort_same hreload
    exact ite_keeps (fun _ => htaken) (locks_grantNext htaken)

theorem locks_messageEnds {k : Client} {via : Carrier} {bytes : List Byte} {later : Bool}
    (h : LocksKept s t) : LocksKept s (messageEnds k via bytes later t) := by
  have hended : LocksKept s (t.setPort k ((t.port k).endTransaction via bytes.length)) :=
    locks_setPort_same h (by cases via <;> rfl)
  unfold messageEnds
  dsimp only
  split
  · exact h
  · split
    · exact hended
    · split
      · exact locks_same hended rfl
      · exact locks_endMessage hended
    · exact locks_endMessage hended

theorem locks_request {k : Client} {i : Instr} (h : LocksKept s t) :
    LocksKept s (request k i (ruleOf i) t) := by
  have harrive : LocksKept s (arrive k i t) := by
    unfold arrive
    split
    · exact h
    · split
      · exact locks_grantNext h
      · split
        · exact h
        · exact locks_messageEnds h
  refine whenOperating_keeps h (ite_keeps (fun _ => ?_) harrive)
  have hhost : (ruleOf i (arrive k i t)).1.finish.host = (arrive k i t).host :=
    (finish_host _).trans (host_effect (ruleOf_effect i (arrive k i t)))
  have hserved := locks_setPort_same (k := k)
    (p := { (ruleOf i (arrive k i t)).1.finish.port k with
      state := .ready, request := none,
      response := responseBytes (ruleOf i (arrive k i t)).2 ((messageOf i).getD 1 0)
        ((messageOf i).getD 0 0) }) (locks_same harrive hhost)
  exact locks_grantNext hserved

theorem detect_lock (p : Port) (condition : FramingCondition) (h : p.lock ≠ .undetermined) :
    (p.detect condition).lock = p.lock := by
  unfold Port.detect
  rw [if_pos h]

end

/-- R154: a set lock is kept by every command but a pin reset. -/
theorem locks_exec {i : Instr} {s t : State} (h : exec i s = .next t)
    (hreset : ∀ cause, i ≠ .pinReset cause) : LocksKept s t := by
  have hs : LocksKept s s := fun _ _ => rfl
  cases hk : requestClient i with
  | some k =>
    rw [exec_eq_request hk] at h
    cases h
    exact locks_request hs
  | none =>
    cases htable : isTableEvent i with
    | true => exact locks_same hs (host_event h htable)
    | false =>
      cases i with
      | pollNone k clocks =>
        cases h
        refine whenOperating_keeps hs (ite_keeps (fun _ => ?_) hs)
        have hread : LocksKept s (s.setPort k ((s.port k).endTransaction
            (.fourWire (Fin.ofNat 8 clocks)) (1 + clocks / 8))) := locks_setPort_same hs
        exact locks_same hread rfl
      | messageTaken k arrival bytes =>
        cases h; exact whenOperating_keeps hs (locks_messageEnds hs)
      | messageRefused k via bytes =>
        cases h; exact whenOperating_keeps hs (locks_messageEnds hs)
      | readTransaction k address count =>
        cases h
        exact whenOperating_keeps hs (ite_keeps (fun _ => locks_setPort_same hs) hs)
      | framingDetection k condition =>
        cases h
        exact whenOperating_keeps hs (locks_setPort hs (detect_lock _ condition))
      | pinReset cause => exact absurd rfl (hreset cause)
      | resetRelease => cases h; exact ite_keeps (fun _ => locks_same hs rfl) hs
      | startupEnd pins0 pins1 pins2 pins3 =>
        cases h
        exact ite_keeps (fun _ => locks_setPort_same (locks_setPort_same (locks_setPort_same
          (locks_setPort_same (locks_same hs rfl))))) hs
      | twoWireCodeByte k address =>
        cases h
        exact whenOperating_keeps hs (ite_keeps (fun _ => locks_setPort_same hs) hs)
      | fourWireFrameStart k =>
        cases h
        exact whenOperating_keeps hs (ite_keeps (fun _ => locks_setPort_same hs) hs)
      | housekeepingTick | leaseLapse | lineAdvance | windowOpen | windowClose | epochEnd | trigger
      | transferStart | attemptNack | transferEnd | stretchLimitExceeded | recoveryEnd | stretchEnd =>
        exact nomatch htable
      | _ => exact nomatch hk

/-- Settles O60: one lemma for each table. -/
theorem tablesChangeOnlyByTheirCommands : Obligations.TablesChangeOnlyByTheirCommands := by
  intro i s t h hreset
  refine ⟨devices_change h hreset, fun hne => geometry_change h hreset fun heq => ?_,
    fun b => speed_change h hreset, fun j hne => subscriptions_change h hreset fun heq => ?_,
    token_change h hreset, owner_change h hreset, fun n => descriptor_change h hreset,
    c_change h hreset, locks_exec h hreset⟩
  · simp only [geometry, Prod.mk.injEq] at heq
    tauto
  · simp only [subscriptions, Prod.mk.injEq] at heq
    tauto

end Sys2Proof.StandingTables
end


section
/-! PROOFS. The reads of the schedule, the outputs, a bus and a queue (R108, R123, R141, R152). -/

set_option Elab.async false

namespace Sys2Proof.ScheduleReads

open Sys2Proof Sys2Proof.Machine Sys2Proof.Commands Sys2Proof.Requests

/-- R175: bit `j` of a flag field is the `j`-th flag. -/
theorem testBit_flagField : ∀ (flags : List Bool) (j : Nat),
    (flagField flags).testBit j = flags.getD j false
  | [], j => by simp [flagField]
  | b :: rest, 0 => by
    have hlow : flagField (b :: rest) % 2 = if b then 1 else 0 := by
      unfold flagField
      split <;> omega
    rw [Nat.testBit_zero, hlow]
    cases b <;> rfl
  | b :: rest, j + 1 => by
    have hhalf : flagField (b :: rest) / 2 = flagField rest := by
      simp only [flagField]
      split <;> omega
    rw [Nat.testBit_succ, hhalf, testBit_flagField rest j, List.getD_cons_succ]

/-- The flags of the twelve outputs in a 16-bit field: bit k for TOk, and 0 above. -/
theorem getLsbD_outputFlags (s : State) (f : TimingOutput → Bool) (j : Nat) :
    (BitVec.ofNat 16 (flagField (s.outputs.toList.map f))).getLsbD j =
      if h : j < 12 then f (s.output ⟨j, h⟩) else false := by
  rw [BitVec.getLsbD_ofNat, testBit_flagField]
  split
  · rename_i h
    have h16 : j < 16 := by omega
    simp [List.getD_eq_getElem?_getD, h, h16, State.output]
  · rename_i h
    simp [List.getD_eq_getElem?_getD, Nat.le_of_not_lt h]

theorem busNo_none {b : Byte} (h : 1 < b.toNat) : busNo b = none := dif_neg (by omega)

/-- Settles O29: each rule answers what stands, by its branch. -/
theorem scheduleAndBusReadsChangeNothing : Obligations.ScheduleAndBusReadsChangeNothing := by
  refine ⟨fun k tag s h => exec_changes rfl h rfl, fun k tag s h => ?_,
    fun k tag bus b s h hb => exec_changes rfl h ?_,
    fun k tag bus s hb => ⟨fun h => exec_refuses rfl h ?_, fun h => exec_refuses rfl h ?_⟩,
    fun k tag bus b e rest s h hb hq => exec_changes rfl h ?_,
    fun k tag bus b s h hb hq => ?_⟩
  · refine ⟨BitVec.ofNat 16 (flagField (s.outputs.toList.map (·.high))),
      BitVec.ofNat 16 (flagField (s.outputs.toList.map (·.selected))),
      exec_changes rfl h ?_, fun o => ?_, fun j hj => ?_⟩
    · simp only [ruleOf, serveReadOutputs, countBytes]
    · simp only [getLsbD_outputFlags, o.isLt, dif_pos, and_self]
    · simp only [getLsbD_outputFlags, Nat.not_lt.mpr hj, dif_neg, not_false_eq_true, and_self]
  · simp only [ruleOf, serveReadBus, busNo_eq hb]
    rfl
  · simp only [ruleOf, serveReadBus, busNo_none hb]
  · simp only [ruleOf, serveReadQueue, busNo_none hb]
  · simp only [ruleOf, serveReadQueue, busNo_eq hb, hq]
    rfl
  · refine ⟨Config.emptyHeadOnBus s.draws, Config.emptyHeadLate s.draws, exec_changes rfl h ?_⟩
    simp only [ruleOf, serveReadQueue, busNo_eq hb, hq]
    rfl

end Sys2Proof.ScheduleReads

end


section
/-! PROOFS. What refill makes of the store and the deferred sets (R73, R74), and STOP (R101, R103). -/

set_option Elab.async false

namespace Sys2Proof.Refills

open Sys2Proof Sys2Proof.Machine Sys2Proof.Commands Sys2Proof.Requests Sys2Proof.ScheduleEvents
open Sys2Proof.Schedule Sys2Proof.QueueLaw

/-! ### Refill -/

theorem mem_enteringBehind {s : State} {b : BusNo} {kept : List Entry} {x : PendingRecord}
    (h : x ∈ enteringBehind s b kept) :
    x ∈ s.store ∧ x.state = .deferred ∧ s.slotBus x.slot = some b :=
  mem_deferredSet.mp (List.mem_of_mem_take h)

theorem enteringBehind_of_none {s : State} {b : BusNo} (h : s.deferredSet b = [])
    (kept : List Entry) : enteringBehind s b kept = [] := by
  rw [enteringBehind, h, List.take_nil]

theorem withReleased_nil (l : List PendingRecord) : withReleased [] l = l := by
  simp [withReleased]

/-- R68: records released one list after the other are released together. -/
theorem withReleased_append {a b : List PendingRecord} (hb : ∀ x ∈ b, x.state = .deferred)
    (l : List PendingRecord) :
    withReleased b (withReleased a l) = withReleased (a ++ b) l := by
  unfold withReleased
  rw [List.map_map]
  refine List.map_congr_left fun x _ => ?_
  rw [Function.comp_apply]
  by_cases ha : x ∈ a
  · have hreleased : { x with state := RecordState.released } ∉ b := fun hmem => by
      cases hb _ hmem
    rw [if_pos ha, if_neg hreleased, if_pos (List.mem_append_left b ha)]
  · rw [if_neg ha]
    simp only [List.mem_append, ha, false_or]

theorem refill_of_none {b : BusNo} {s : State} (h : s.deferredSet b = []) : refill b s = s := by
  unfold refill
  rw [h, List.foldl_nil]

theorem refill_store {b : BusNo} {s : State}
    (h : s.deferredSet b = [] ∨ RecordsDistinct s) :
    (refill b s).store = withReleased (enteringBehind s b (s.queue b)) s.store := by
  obtain hnone | hdistinct := h
  · rw [refill_of_none hnone, enteringBehind_of_none hnone, withReleased_nil]
  · exact (refill_spec b s).2.2.2 hdistinct

/-- A state is determined by its blocks. -/
theorem state_eq {s t : State} (hphase : t.phase = s.phase) (hslots : t.slots = s.slots)
    (hclaims : t.claims = s.claims) (hbatches : t.batches = s.batches)
    (hstore : t.store = s.store) (hgen : t.gen = s.gen)
    (hqueues : t.queues.queue = s.queues.queue) (hprobes : t.queues.probes = s.queues.probes)
    (hbuses : t.buses = s.buses) (houtputs : t.outputs = s.outputs) (hhost : t.host = s.host)
    (hevents : t.events = s.events) (hdraws : t.draws = s.draws)
    (hpending : t.pending = s.pending) : t = s := by
  obtain ⟨p, sl, cl, ba, st, ge, ⟨qu, pr⟩, bu, ou, ho, ev, dr, pe⟩ := t
  simp only at *
  subst hphase hslots hclaims hbatches hstore hgen hqueues hprobes hbuses houtputs hhost hevents
    hdraws hpending
  rfl

/-- R73: refill changes the store's states and the queues' entries. -/
theorem refill_frame (b : BusNo) (s : State) :
    refill b s = { s with
      store := (refill b s).store,
      queues := { s.queues with queue := (refill b s).queues.queue } } :=
  state_eq (refill_phase ..) (refill_slots ..) (refill_claims ..) (refill_batches ..) rfl
    (refill_gen ..) rfl (refill_spec b s).2.2.1 (refill_buses ..) (refill_outputs ..)
    (refill_host ..) (refill_events ..) (refill_draws ..) (refill_pending ..)

theorem refillEntryFor_congr {s t : State} (hslots : t.slots = s.slots) (hgen : t.gen = s.gen) :
    refillEntryFor t = refillEntryFor s := by
  funext x
  unfold refillEntryFor writeEntryFor State.slot
  rw [hslots, hgen]

/-- R73: a record that is released leaves its bus's deferred set and no other. -/
theorem deferredSet_moved {s t : State} {b : BusNo} {f : PendingRecord → PendingRecord}
    (hf : ∀ x, f x = x ∨ s.slotBus x.slot ≠ some b ∧ f x = { x with state := .released })
    (hstore : t.store = s.store.map f) (hslots : t.slots = s.slots)
    (hbuses : t.buses = s.buses) : t.deferredSet b = s.deferredSet b := by
  have hbus : ∀ i, t.slotBus i = s.slotBus i := fun i => by
    unfold State.slotBus State.slot State.device
    rw [hslots, hbuses]
  unfold State.deferredSet
  rw [hstore]
  simp only [hbus]
  generalize hp : (fun x : PendingRecord => x.state == .deferred && s.slotBus x.slot == some b) = p
  induction s.store with
  | nil => rfl
  | cons x l ih =>
    rw [List.map_cons, List.filter_cons, List.filter_cons, ih]
    obtain hx | ⟨hout, hx⟩ := hf x
    · rw [hx]
    · have hpx : p x = false := by subst hp; simp [hout]
      have hpf : p (f x) = false := by subst hp; simp [hx]
      rw [if_neg (by simp [hpf]), if_neg (by simp [hpx])]

/-- R73: refill releases records of its own bus. -/
theorem refill_moved (b : BusNo) (s : State) : ∃ f : PendingRecord → PendingRecord,
    (∀ x, f x = x ∨ s.slotBus x.slot = some b ∧ f x = { x with state := .released }) ∧
    (refill b s).store = s.store.map f := by
  obtain ⟨-, -, -, hstore⟩ := refillAll b (s.deferredSet b) s (refill b s) _
    (fun x hx => (deferredSet_device hx).2) rfl rfl
  refine ⟨_, fun x => ?_, hstore⟩
  split
  · rename_i hany
    obtain ⟨y, hy, hsame⟩ := List.any_eq_true.mp hany
    refine .inr ⟨?_, rfl⟩
    rw [(same_slot_target hsame).1]
    exact (mem_deferredSet.mp (List.mem_of_mem_take hy)).2.2
  · exact .inl rfl

theorem refill_deferredSet {b c : BusNo} (hne : b ≠ c) (s : State) :
    (refill b s).deferredSet c = s.deferredSet c := by
  obtain ⟨f, hf, hstore⟩ := refill_moved b s
  refine deferredSet_moved (fun x => (hf x).imp_right fun ⟨hb, hx⟩ => ⟨?_, hx⟩) hstore
    (refill_slots ..) (refill_buses ..)
  rw [hb]
  exact fun h => hne (Option.some.inj h)

/-- R73, R74: refill behind the entries `kept`, in a state that differs from `s` in queues alone. -/
theorem refill_behind {s : State} {b : BusNo} {kept : List Entry}
    (h : s.deferredSet b = [] ∨ RecordsDistinct s) :
    (refill b (s.setQueue b kept)).queue b =
      kept ++ (enteringBehind s b kept).map (refillEntryFor s) ∧
    (∀ c : BusNo, b ≠ c → (refill b (s.setQueue b kept)).queue c = s.queue c) ∧
    (refill b (s.setQueue b kept)).store =
      withReleased (enteringBehind s b kept) s.store := by
  obtain ⟨hqueue, hother, -, -⟩ := refill_spec b (s.setQueue b kept)
  have hself : (s.setQueue b kept).queue b = kept :=
    (State.setQueue_queue ..).trans (if_pos rfl)
  refine ⟨?_, fun c hc => ?_, ?_⟩
  · rw [hqueue, hself]
    rfl
  · rw [hother c hc]
    exact (State.setQueue_queue ..).trans (if_neg hc)
  · rw [refill_store (b := b) (s := s.setQueue b kept) h, hself]
    rfl

/-- R63, R64: releasing records leaves them distinct. -/
theorem recordsDistinct_withReleased {s t : State} {taken : List PendingRecord}
    (h : RecordsDistinct s) (hstore : t.store = withReleased taken s.store) :
    RecordsDistinct t := by
  have hsame : ∀ x : PendingRecord, ∀ f : PendingRecord → PendingRecord,
      f = (fun x => if x ∈ taken then { x with state := .released } else x) →
      (f x).slot = x.slot ∧ (f x).target = x.target ∧ (f x).batch = x.batch ∧
        (f x).position = x.position := by
    rintro x _ rfl
    dsimp only
    split <;> exact ⟨rfl, rfl, rfl, rfl⟩
  unfold RecordsDistinct
  rw [hstore, withReleased, List.pairwise_map]
  refine h.imp fun {x y} hxy => ?_
  obtain ⟨hxs, hxt, hxb, hxp⟩ := hsame x _ rfl
  obtain ⟨hys, hyt, hyb, hyp⟩ := hsame y _ rfl
  rw [hxs, hxt, hxb, hxp, hys, hyt, hyb, hyp]
  exact hxy

/-! ### The WAITING PRIME entries leave (R99, R126) -/

theorem withoutPrimes_eq (q : List Entry) : withoutPrimes q =
    (q.filter (fun e => e.kind != .prime || e.onBus)).map (fun e =>
      if e.kind = .prime then { e with discarded := true } else e) := by
  unfold withoutPrimes
  have hfilter : (fun e : Entry => !(e.kind == .prime && !e.onBus)) =
      (fun e => e.kind != .prime || e.onBus) := by
    funext e
    rw [Bool.not_and, Bool.not_not]
    rfl
  rw [hfilter]
  refine List.map_congr_left fun e _ => ?_
  simp only [beq_iff_eq]

/-- R73, R99, R126: each bus's queue without its WAITING PRIME entries, refilled. -/
theorem abandonPrimes_spec {s : State} {kept : BusNo → List Entry}
    (h : (∀ b : BusNo, s.deferredSet b = []) ∨ RecordsDistinct s)
    (hkept : ∀ b, kept b = withoutPrimes (s.queue b)) :
    (∀ b : BusNo, (abandonPrimes s).queue b =
      kept b ++ (enteringBehind s b (kept b)).map (refillEntryFor s)) ∧
    (abandonPrimes s).store =
      withReleased (enteringBehind s 0 (kept 0) ++ enteringBehind s 1 (kept 1)) s.store ∧
    abandonPrimes s = { s with
      store := (abandonPrimes s).store,
      queues := { s.queues with queue := (abandonPrimes s).queues.queue } } := by
  obtain ⟨hqueue0, hother0, hstore0⟩ := refill_behind (kept := kept 0) (b := 0) (s := s)
    (h.imp_left (· 0))
  have hframe0 := refill_frame 0 (s.setQueue 0 (kept 0))
  generalize hu : refill 0 (s.setQueue 0 (kept 0)) = u at hqueue0 hother0 hstore0 hframe0
  have hslots : u.slots = s.slots := by rw [hframe0]; rfl
  have hbuses : u.buses = s.buses := by rw [hframe0]; rfl
  have hgen : u.gen = s.gen := by rw [hframe0]; rfl
  have hset1 : u.deferredSet 1 = s.deferredSet 1 := by
    rw [← hu]
    exact refill_deferredSet (by decide) _
  obtain ⟨hqueue1, hother1, hstore1⟩ := refill_behind (kept := kept 1) (b := 1) (s := u)
    (h.imp (fun hn => hset1.trans (hn 1)) fun hd => recordsDistinct_withReleased hd hstore0)
  have hframe1 := refill_frame 1 (u.setQueue 1 (kept 1))
  have hentering : enteringBehind u 1 (kept 1) = enteringBehind s 1 (kept 1) := by
    unfold enteringBehind
    rw [hset1]
  have habandon : abandonPrimes s = refill 1 (u.setQueue 1 (kept 1)) := by
    unfold abandonPrimes
    rw [← hkept 0, hu]
    dsimp only
    rw [hother0 1 (by decide), ← hkept 1]
  rw [habandon]
  refine ⟨fun b => ?_, ?_, ?_⟩
  · obtain rfl | rfl := bus_cases b
    · rw [hother1 0 (by decide), hqueue0]
    · rw [hqueue1, hentering, refillEntryFor_congr hslots hgen]
  · rw [hstore1, hentering, hstore0,
      withReleased_append (fun x hx => (mem_enteringBehind hx).2.1)]
  · generalize refill 1 (u.setQueue 1 (kept 1)) = v at hframe1 ⊢
    rw [hframe1, hframe0]
    rfl

end Sys2Proof.Refills

end


section
/-! PROOFS. STOP by run state and option (R101, R103, R126). -/

set_option Elab.async false

namespace Sys2Proof.Stops

open Sys2Proof Sys2Proof.Machine Sys2Proof.Commands Sys2Proof.Requests Sys2Proof.ScheduleEvents
open Sys2Proof.Schedule Sys2Proof.Refills

/-! ### Reports and STOPPED (R103, R106) -/

/-- R106: the causing client reads from the cause. -/
theorem cause_eq (k j : Client) : (some k == some j) = (j == k) := by
  rw [Bool.eq_iff_iff, beq_iff_eq, beq_iff_eq, Option.some_inj, eq_comm]

/-- R106: what is offered by property depends on the event queues and C alone. -/
theorem offersTo_congr {s t : State} (f : EventQueue → Bool) (g : Client → Bool) (e : Event)
    (hevents : t.events = s.events) (hc : t.gen.c = s.gen.c) :
    offersTo (fun j => f (t.eventQueue j) || g j) t e =
      offersTo (fun j => f (s.eventQueue j) || g j) s e := by
  unfold offersTo State.eventQueue
  rw [hevents, hc]

/-- R103: the generator once it is STOPPED. -/
def stopped (g : Generator) : Generator :=
  { g with run := .stopped, line := 0, latch := false, primeList := [], primesOutstanding := 0,
           issuer := none, window := .shut }

/-- R103: what entering STOPPED leaves. -/
theorem stopped_frame (s : State) : setIssuer none (enterStopped s) = { s with
    gen := stopped s.gen, outputs := (enterStopped s).outputs,
    queues := if s.gen.run.inEpoch then (markQueuesLate s.gen.c s).queues else s.queues } := by
  unfold enterStopped
  by_cases h : s.gen.run.inEpoch = true
  · rw [if_pos h, if_pos h]
    rfl
  · rw [if_neg h, if_neg h]
    rfl

/-- R149: in STOPPED every output is inactive at its inactive level. -/
theorem enterStopped_output (s : State) (o : Fin 12) :
    (enterStopped s).output o = (s.output o).inactive := by
  unfold enterStopped
  by_cases h : s.gen.run.inEpoch = true
  · rw [if_pos h]
    exact (outputsInactive_output _ o).trans rfl
  · rw [if_neg h]
    exact (outputsInactive_output _ o).trans rfl

/-! ### STOP (R101) -/

theorem exec_stop {k : Client} {tag option : Byte} {o : StopOption} {s t : State}
    (h : InService k (.stop k tag option) s) (htoken : s.claims.token = some k)
    (hrun : s.gen.run ≠ .stopped) (ho : stopOptionOf option = some o)
    (ht : t = stopSchedule k o s) (hevents : t.events = s.events) (hc : t.gen.c = s.gen.c) :
    exec (.stop k tag option) s = .next (endService k tag 0x42 ⟨.ok, []⟩
      (deliver t (offersTo (fun j => (s.eventQueue j).sched || j == k) s
        (.scheduleState t.gen.run t.gen.mode .stopRequest (some k) t.gen.c)))) := by
  have hrule : ruleOf (.stop k tag option) s =
      answer (reportSchedule .stopRequest (some k) (begin t)) .ok := by
    refine ruleOf_withToken rfl htoken ?_
    simp only [serveStop, hrun, if_false, ho, ht]
  refine (exec_answers rfl h hrule).trans ?_
  have hoffers := offersTo_congr (·.sched) (fun j => j == k)
    (.scheduleState t.gen.run t.gen.mode .stopRequest (some k) t.gen.c) hevents hc
  unfold Work.finish
  rw [reportSchedule_out, reportSchedule_st]
  simp only [begin, List.nil_append, cause_eq, hoffers]
  rfl

theorem stopSchedule_atOnce {k : Client} {o : StopOption} {s : State}
    (h : s.gen.run.inEpoch = true ∧ o = .now ∨ s.gen.run = .waitTrigger) :
    stopSchedule k o s = setIssuer none (enterStopped s) := by
  unfold stopSchedule
  obtain ⟨hrun, rfl⟩ | hrun := h
  · cases hr : s.gen.run <;> first | rfl | (rw [hr] at hrun; cases hrun)
  · rw [hrun]

/-- R73, R74: in PRIMING every record that enters by refill is late. -/
theorem refillEntryFor_outside {s : State} (h : s.gen.run.inEpoch = false) :
    refillEntryFor s = writeEntryFor s true := by
  funext x
  simp [refillEntryFor, h]

theorem stopOption_cases {option : Byte} (h : option = 0x00 ∨ option = 0x01) :
    ∃ o, stopOptionOf option = some o := by
  obtain rfl | rfl := h
  · exact ⟨_, rfl⟩
  · exact ⟨_, rfl⟩

theorem stopSchedule_priming {k : Client} {o : StopOption} {s : State}
    (h : s.gen.run = .priming) :
    stopSchedule k o s = setIssuer none (enterStopped (abandonPrimes s)) := by
  unfold stopSchedule
  rw [h]

/-- Settles O27: one schedule for each run state and option, and the report of each. -/
theorem stopActsByRunStateAndOption : Obligations.StopActsByRunStateAndOption := by
  intro k tag option s h htoken
  refine ⟨fun hcase u hu => ?_, fun hcase => ?_, fun hrun hoption hrecords kept hkept => ?_,
    fun hzero hone hrun => exec_refuses rfl h ?_, fun hrun => exec_refuses rfl h ?_⟩
  · obtain ⟨hrun, rfl⟩ | ⟨hrun, rfl⟩ := hcase
    · have ht : u = stopSchedule k .atEnd s := by
        unfold stopSchedule
        rw [hu, hrun]
        rfl
      rw [exec_stop h htoken (by simp [hrun]) rfl ht (by rw [hu]; rfl) (by rw [hu]; rfl), hu]
      rfl
    · have hsame : u = s := by
        rw [hu, ← hrun, if_neg (by simp [hrun])]
        rfl
      have ht : u = stopSchedule k .atEnd s := by
        unfold stopSchedule
        rw [hsame, hrun]
      rw [exec_stop h htoken (by simp [hrun]) rfl ht (by rw [hsame]) (by rw [hsame]), hsame, hrun]
  · have hrun : s.gen.run ≠ .stopped := by
      rintro hstopped
      simp [hstopped, RunState.inEpoch] at hcase
    obtain ⟨o, ho, hgo⟩ : ∃ o, stopOptionOf option = some o ∧
        (s.gen.run.inEpoch = true ∧ o = .now ∨ s.gen.run = .waitTrigger) := by
      obtain ⟨hin, rfl⟩ | ⟨hwait, hoption⟩ := hcase
      · exact ⟨_, rfl, .inl ⟨hin, rfl⟩⟩
      · exact (stopOption_cases hoption).imp fun o ho => ⟨ho, .inr hwait⟩
    have ht := (stopSchedule_atOnce (k := k) hgo).symm
    have hframe := stopped_frame s
    refine ⟨setIssuer none (enterStopped s), ?_, hframe, fun i => ?_⟩
    · refine (exec_stop h htoken hrun ho ht (by rw [hframe]) (by rw [hframe]; rfl)).trans ?_
      rw [hframe]
      rfl
    · exact (enterStopped_output s i).trans (by unfold TimingOutput.inactive pinLevel; rfl)
  · obtain ⟨o, ho⟩ := stopOption_cases hoption
    obtain ⟨hqueue, hstore, habandon⟩ := abandonPrimes_spec (kept := kept) hrecords
      (fun b => (hkept b).trans (withoutPrimes_eq (s.queue b)).symm)
    have hin : s.gen.run.inEpoch = false := by rw [hrun]; rfl
    have hframe := stopped_frame (abandonPrimes s)
    have houtput : ∀ i, (setIssuer none (enterStopped (abandonPrimes s))).output i =
        (s.output i).inactive := fun i =>
      (enterStopped_output (abandonPrimes s) i).trans
        (congrArg _ (output_of_outputs (abandonPrimes_outputs s) i))
    have ht := (stopSchedule_priming (k := k) (o := o) hrun).symm
    rw [abandonPrimes_gen, if_neg (by simp [hin])] at hframe
    generalize abandonPrimes s = v at hqueue hstore habandon hframe houtput ht
    generalize setIssuer none (enterStopped v) = u at hframe houtput ht
    generalize (enterStopped v).outputs = outputs at hframe
    have hu : u = { s with
        gen := stopped s.gen, outputs := u.outputs, store := u.store,
        queues := { s.queues with queue := u.queues.queue } } := by
      rw [hframe, habandon]
    refine ⟨u, ?_, hu, fun b => ?_, ?_, fun i => ?_⟩
    · refine (exec_stop h htoken (by simp [hrun]) ho ht (by rw [hu]) (by rw [hu]; rfl)).trans ?_
      rw [hu]
      rfl
    · rw [← refillEntryFor_outside hin, ← hqueue b, hframe]
      rfl
    · rw [← hstore, hframe]
    · rw [houtput i]
      exact ⟨rfl, rfl, rfl⟩
  · refine ruleOf_withToken rfl htoken ?_
    have hnone : stopOptionOf option = none := by
      rw [stopOptionOf, if_neg hzero, if_neg hone]
    simp only [serveStop, hrun, if_false, hnone]
  · refine ruleOf_withToken rfl htoken ?_
    simp only [serveStop, hrun, if_true]

end Sys2Proof.Stops

end


section
/-! PROOFS. Where a batch reference finds its sealed context, and what the books of several resolved
records come to (R51, R52, R76). -/

set_option Elab.async false

namespace Sys2Proof.SealedBooks

open Sys2Proof Sys2Proof.Machine Sys2Proof.Pieces

/-! ### The context of a reference -/

/-- A context that a reference of its client may find: sealed, and of its id. -/
abbrev Answers (b : Batch) (r : BatchRef) : Prop := b.isSealed = true ∧ b.id = r.id

theorem sealedContext_congr {s t : State} {r : BatchRef}
    (h : ∀ m : Fin 4, Answers (t.context r.client m) r ↔ Answers (s.context r.client m) r) :
    t.sealedContext r = s.sealedContext r := by
  unfold State.sealedContext State.findContext
  refine congrArg (List.find? · _) (funext fun m => ?_)
  rw [Bool.eq_iff_iff]
  simpa only [Bool.and_eq_true, beq_iff_eq] using h m

theorem ref_eq {r q : BatchRef} (hclient : r.client = q.client) (hid : r.id = q.id) : r = q := by
  obtain ⟨c, i⟩ := r
  exact congrArg₂ BatchRef.mk hclient hid

/-- Two references find two contexts. -/
theorem sealedContext_ne {s : State} {r q : BatchRef} {n m : Fin 4}
    (hr : s.sealedContext r = some n) (hq : s.sealedContext q = some m) (hne : q ≠ r) :
    ¬ (r.client = q.client ∧ n = m) := by
  rintro ⟨hclient, rfl⟩
  have hid := (sealedContext_isSealed hr).2
  rw [hclient, (sealedContext_isSealed hq).2] at hid
  exact hne (ref_eq hclient.symm hid)

/-- The context of a reference keeps its name or is freed: every other reference finds what it found. -/
theorem sealedContext_setContext_other {s : State} {r q : BatchRef} {n : Fin 4} {b : Batch}
    (hr : s.sealedContext r = some n) (hb : b.isSealed = true → b.id = r.id) (hne : q ≠ r) :
    (s.setContext r.client n b).sealedContext q = s.sealedContext q := by
  refine sealedContext_congr fun m => ?_
  rw [State.setContext_context]
  split
  · rename_i hat
    obtain ⟨hclient, rfl⟩ := hat
    have hid := (sealedContext_isSealed hr).2
    rw [hclient] at hid
    refine iff_of_false (fun ⟨hs, hq⟩ => ?_) (fun ⟨_, hq⟩ => ?_)
    · exact hne (ref_eq hclient.symm (hq.symm.trans (hb hs)))
    · exact hne (ref_eq hclient.symm (hq.symm.trans hid))
  · exact Iff.rfl

/-- A sealed context that stays sealed under its id is found as before. -/
theorem sealedContext_setContext_same {s : State} {r q : BatchRef} {n : Fin 4} {b : Batch}
    (hr : s.sealedContext r = some n) (hsealed : b.isSealed = true) (hid : b.id = r.id) :
    (s.setContext r.client n b).sealedContext q = s.sealedContext q := by
  refine sealedContext_congr fun m => ?_
  rw [State.setContext_context]
  split
  · rename_i hat
    obtain ⟨hclient, rfl⟩ := hat
    have hfound := sealedContext_isSealed hr
    rw [hclient] at hfound
    simp only [Answers, hsealed, hfound.1, hid, hfound.2]
  · exact Iff.rfl

theorem sealedContext_of_batches {s t : State} (h : t.batches = s.batches) (r : BatchRef) :
    t.sealedContext r = s.sealedContext r := by
  refine sealedContext_congr fun m => ?_
  rw [State.context, h]
  rfl

end Sys2Proof.SealedBooks

end


section
/-! PROOFS. RESET_SCHEDULE: the queues, the books and the reports it leaves (R105, R59, R124). -/

set_option Elab.async false

namespace Sys2Proof.ScheduleReset

open Sys2Proof Sys2Proof.Machine Sys2Proof.Commands Sys2Proof.Requests Sys2Proof.ScheduleEvents
open Sys2Proof.Schedule Sys2Proof.Pieces Sys2Proof.QueueSteps Sys2Proof.Stops Sys2Proof.SealedBooks

/-! ### Two blocks' records in one order (R172) -/

theorem mergeBy_perm {α : Type} (pick : Nat → Bool) : ∀ (fuel : Nat) (a b : List α),
    (mergeBy pick fuel a b).Perm (a ++ b)
  | 0, _, _ => .refl _
  | _ + 1, [], _ => .refl _
  | _ + 1, x :: a, [] => by rw [mergeBy, List.append_nil]
  | fuel + 1, x :: a, y :: b => by
    rw [mergeBy]
    split
    · exact (mergeBy_perm pick fuel a (y :: b)).cons x
    · exact ((mergeBy_perm pick fuel (x :: a) b).cons y).trans List.perm_middle.symm

theorem left_sublist_mergeBy {α : Type} (pick : Nat → Bool) : ∀ (fuel : Nat) (a b : List α),
    a.Sublist (mergeBy pick fuel a b)
  | 0, a, b => List.sublist_append_left a b
  | _ + 1, [], b => List.nil_sublist b
  | _ + 1, x :: a, [] => by rw [mergeBy]
  | fuel + 1, x :: a, y :: b => by
    rw [mergeBy]
    split
    · exact (left_sublist_mergeBy pick fuel a (y :: b)).cons_cons x
    · exact (left_sublist_mergeBy pick fuel (x :: a) b).cons y

theorem right_sublist_mergeBy {α : Type} (pick : Nat → Bool) : ∀ (fuel : Nat) (a b : List α),
    b.Sublist (mergeBy pick fuel a b)
  | 0, a, b => List.sublist_append_right a b
  | _ + 1, [], b => .refl b
  | _ + 1, x :: a, [] => List.nil_sublist _
  | fuel + 1, x :: a, y :: b => by
    rw [mergeBy]
    split
    · exact (right_sublist_mergeBy pick fuel a (y :: b)).cons x
    · exact (right_sublist_mergeBy pick fuel (x :: a) b).cons_cons y

/-! ### What a client's queue keeps (R167) -/

theorem take_records {q : EventQueue} (c : Epoch) (e : Event) (h : q.records.length < 16) :
    (q.take c e).records = q.records ++ [{ event := e, sequence := q.nextSequence, stamp := c }] := by
  have hroom : q.records.length < Config.eventDepth := h
  rw [EventQueue.take, if_pos hroom]

theorem length_le_take (q : EventQueue) (c : Epoch) (e : Event) :
    q.records.length ≤ (q.take c e).records.length := by
  by_cases h : q.records.length < 16
  · rw [take_records c e h, List.length_append]
    exact Nat.le_add_right _ _
  · have hfull : ¬ q.records.length < Config.eventDepth := h
    rw [EventQueue.take, if_neg hfull]

theorem length_le_takeAll : ∀ (out : List Offer) (q : EventQueue),
    q.records.length ≤ (takeAll q out).records.length
  | [], _ => Nat.le_refl _
  | _ :: out, _ => Nat.le_trans (length_le_take ..) (length_le_takeAll out _)

/-- R167: a queue that does not fill has kept every record offered, with its event and its stamp. -/
theorem takeAll_kept : ∀ (out : List Offer) (q : EventQueue),
    (takeAll q out).records.length < 16 →
    ∃ new : List EventRecord, (takeAll q out).records = q.records ++ new ∧
      new.map (·.event) = out.map (·.event) ∧ new.map (·.stamp) = out.map (·.stamp)
  | [], _, _ => ⟨[], (List.append_nil _).symm, rfl, rfl⟩
  | o :: out, q, hroom => by
    have hlt : q.records.length < 16 := Nat.lt_of_le_of_lt (length_le_takeAll (o :: out) q) hroom
    obtain ⟨new, hnew, hevent, hstamp⟩ := takeAll_kept out _ hroom
    refine ⟨{ event := o.event, sequence := q.nextSequence, stamp := o.stamp } :: new, ?_, ?_, ?_⟩
    · rw [takeAll_cons, hnew, take_records _ _ hlt, List.append_assoc]
      rfl
    · rw [List.map_cons, List.map_cons, hevent]
    · rw [List.map_cons, List.map_cons, hstamp]

/-- The events that a list of possible offers holds for one client. -/
theorem events_of_offers {α : Type} {f : α → Option Offer} {g : α → Option Event} {j : Client}
    (h : ∀ x, ((f x).filter (·.client == j)).map (·.event) = g x) (l : List α) :
    ((l.filterMap f).filter (·.client == j)).map (·.event) = l.filterMap g := by
  induction l with
  | nil => rfl
  | cons x l ih =>
    have hx := h x
    cases hf : f x with
    | none =>
      rw [hf] at hx
      rw [List.filterMap_cons_none hf, List.filterMap_cons_none hx.symm, ih]
    | some o =>
      rw [hf] at hx
      rw [List.filterMap_cons_some hf, List.filter_cons]
      by_cases ho : (o.client == j) = true
      · rw [if_pos ho, List.map_cons, ih]
        have hg : g x = some o.event := by rw [← hx, Option.filter_some, if_pos ho]; rfl
        rw [List.filterMap_cons_some hg]
      · rw [if_neg ho, ih]
        have hg : g x = none := by rw [← hx, Option.filter_some, if_neg ho]; rfl
        rw [List.filterMap_cons_none hg]

/-! ### The books (R59, R83) -/

/-- R59: the books of a batch that RESET_SCHEDULE ends: what was unresolved counts as dropped. -/
def resetBooks (b : Batch) : Batch :=
  { b with dropped := b.dropped + b.unresolved, unresolved := 0 }

/-- R59: the BATCH_DONE of a sealed batch that RESET_SCHEDULE ends. -/
def resetDone (s : State) (r : BatchRef) : Option Offer :=
  (s.sealedContext r).map (fun n =>
    { client := r.client, stamp := s.gen.c,
      event := (resetBooks (s.context r.client n)).doneEvent .reset })

/-- R52: a completed batch leaves its context and the seal list. -/
def freed (r : BatchRef) (n : Fin 4) (s : State) : State :=
  (s.setContext r.client n Batch.empty).setSealList (s.batches.sealList.filter (· != r))

theorem freed_context (r : BatchRef) (n : Fin 4) (s : State) (j : Client) (m : Fin 4) :
    (freed r n s).context j m =
      if r.client = j ∧ n = m then Batch.empty else s.context j m :=
  State.setContext_context ..

theorem freed_sealedContext {s : State} {r q : BatchRef} {n : Fin 4}
    (hr : s.sealedContext r = some n) (hne : q ≠ r) :
    (freed r n s).sealedContext q = s.sealedContext q :=
  sealedContext_setContext_other hr (fun h => by cases h) hne

theorem resetBatch_cases (w : Work) (r : BatchRef) :
    (w.st.sealedContext r = none ∧ resetBatch w r = w) ∨
      ∃ (n : Fin 4) (o : Offer), w.st.sealedContext r = some n ∧ resetDone w.st r = some o ∧
        resetBatch w r = ⟨freed r n w.st, w.out ++ [o]⟩ := by
  unfold resetBatch resetDone
  cases h : w.st.sealedContext r with
  | none => exact .inl ⟨rfl, rfl⟩
  | some n => exact .inr ⟨n, _, rfl, rfl, rfl⟩

theorem resetDone_congr {s t : State} {q : BatchRef}
    (hsealed : t.sealedContext q = s.sealedContext q) (hc : t.gen.c = s.gen.c)
    (hcontext : ∀ n, s.sealedContext q = some n →
      t.context q.client n = s.context q.client n) : resetDone t q = resetDone s q := by
  unfold resetDone
  rw [hsealed]
  cases h : s.sealedContext q with
  | none => rfl
  | some n => rw [Option.map_some, Option.map_some, hcontext n h, hc]

/-- R59: the reset of one batch leaves every other batch's report. -/
theorem resetBatch_other {w : Work} {r q : BatchRef} (hne : q ≠ r) :
    resetDone (resetBatch w r).st q = resetDone w.st q ∧
      (resetBatch w r).st.sealedContext q = w.st.sealedContext q := by
  obtain ⟨-, he⟩ | ⟨n, o, hn, -, he⟩ := resetBatch_cases w r
  · rw [he]
    exact ⟨rfl, rfl⟩
  · have hsealed : (resetBatch w r).st.sealedContext q = w.st.sealedContext q := by
      rw [he]
      exact freed_sealedContext hn hne
    refine ⟨resetDone_congr hsealed (by rw [resetBatch_gen]) fun m hm => ?_, hsealed⟩
    rw [he]
    exact (freed_context ..).trans (if_neg (sealedContext_ne hn hm hne))

theorem resetBatches_out : ∀ (l : List BatchRef) (w : Work), l.Nodup →
    (l.foldl resetBatch w).out = w.out ++ l.filterMap (resetDone w.st)
  | [], w, _ => (List.append_nil _).symm
  | r :: l, w, hnodup => by
    obtain ⟨hnot, hrest⟩ := List.nodup_cons.mp hnodup
    have htail : l.filterMap (resetDone (resetBatch w r).st) = l.filterMap (resetDone w.st) :=
      
      List.filterMap_congr fun q hq =>
        (resetBatch_other fun h : q = r => hnot (h ▸ hq)).1
    rw [List.foldl_cons, resetBatches_out l _ hrest, htail]
    obtain ⟨hn, he⟩ | ⟨n, o, hn, ho, he⟩ := resetBatch_cases w r
    · rw [he, List.filterMap_cons_none (by rw [resetDone, hn]; rfl)]
    · rw [List.filterMap_cons_some ho, he, List.append_assoc]
      rfl

/-- R59: a context that is not sealed keeps what it holds. -/
theorem resetBatches_unsealed (l : List BatchRef) (w : Work) {j : Client} {m : Fin 4}
    (h : (w.st.context j m).isSealed = false) :
    (l.foldl resetBatch w).st.context j m = w.st.context j m := by
  refine List.foldlRecOn (motive := fun v : Work => v.st.context j m = w.st.context j m) _ _ rfl
    fun v hv r _ => ?_
  obtain ⟨-, he⟩ | ⟨n, o, hn, -, he⟩ := resetBatch_cases v r <;> rw [he]
  · exact hv
  · have hat : ¬ (r.client = j ∧ n = m) := by
      rintro ⟨rfl, rfl⟩
      rw [← hv, (sealedContext_isSealed hn).1] at h
      cases h
    exact ((freed_context ..).trans (if_neg hat)).trans hv

theorem resetBatch_frees {w : Work} {r : BatchRef} {n : Fin 4}
    (hn : w.st.sealedContext r = some n) :
    (resetBatch w r).st.context r.client n = Batch.empty := by
  obtain ⟨hnone, -⟩ | ⟨m, o, hm, -, he⟩ := resetBatch_cases w r
  · rw [hnone] at hn
    cases hn
  · rw [hn] at hm
    cases hm
    rw [he]
    exact (freed_context ..).trans (if_pos ⟨rfl, rfl⟩)

/-- R59, R83: every batch that is named has become FREE. -/
theorem resetBatches_freed {r : BatchRef} {n : Fin 4} (l : List BatchRef) (hmem : r ∈ l) :
    ∀ w : Work, w.st.sealedContext r = some n →
    (l.foldl resetBatch w).st.context r.client n = Batch.empty := by
  induction l with
  | nil => cases hmem
  | cons q l ih =>
    intro w hn
    rw [List.foldl_cons]
    by_cases hq : r = q
    · rw [← hq]
      have hempty := resetBatch_frees hn
      exact (resetBatches_unsealed l _ (by rw [hempty]; rfl)).trans hempty
    · exact ih ((List.mem_cons.mp hmem).resolve_left hq) _ ((resetBatch_other hq).2.trans hn)

theorem resetBatches_previousId (l : List BatchRef) (w : Work) :
    (l.foldl resetBatch w).st.batches.previousId = w.st.batches.previousId := by
  refine List.foldlRecOn
    (motive := fun v : Work => v.st.batches.previousId = w.st.batches.previousId) _ _ rfl
    fun v hv r _ => ?_
  obtain ⟨-, he⟩ | ⟨n, o, -, -, he⟩ := resetBatch_cases v r <;> rw [he] <;> exact hv

/-! ### The queues (R103, R124) -/

/-- R103: entering STOPPED changes no more of an entry than the late flag of one that waits. -/
theorem enterStopped_queue (s : State) : ∃ f : Entry → Entry,
    (∀ e, f e = e ∨ e.onBus = false ∧ f e = { e with late := true }) ∧
    ∀ b, (enterStopped s).queue b = (s.queue b).map f := by
  by_cases h : s.gen.run.inEpoch = true
  · refine ⟨fun e => if !e.onBus && e.kind == .write && e.deadline == some s.gen.c
      then { e with late := true } else e, fun e => ?_, fun b => ?_⟩
    · dsimp only
      split
      · rename_i hwaits
        simp only [Bool.and_eq_true, Bool.not_eq_true'] at hwaits
        exact .inr ⟨hwaits.1.1, rfl⟩
      · exact .inl rfl
    · rw [enterStopped_inEpoch h]
      exact markQueuesLate_queue s.gen.c s b
  · refine ⟨id, fun e => .inl rfl, fun b => ?_⟩
    rw [List.map_id, enterStopped, if_neg h]
    rfl

theorem filter_onBus_marked {f : Entry → Entry}
    (h : ∀ e, f e = e ∨ e.onBus = false ∧ f e = { e with late := true }) (q : List Entry) :
    (q.map f).filter (·.onBus) = q.filter (·.onBus) := by
  induction q with
  | nil => rfl
  | cons e q ih =>
    rw [List.map_cons, List.filter_cons, List.filter_cons, ih]
    obtain he | ⟨hwaits, he⟩ := h e
    · rw [he]
    · simp [he, hwaits]

theorem waitingProbes_stopped (s : State) (j : Client) :
    waitingProbes (setIssuer none (enterStopped s)) j = waitingProbes s j := by
  obtain ⟨f, hf, hqueue⟩ := enterStopped_queue s
  have hcount : ∀ q : List Entry, (q.map f).countP (fun e => !e.onBus && e.kind == .probe && e.isOf j) =
      q.countP (fun e => !e.onBus && e.kind == .probe && e.isOf j) := fun q => by
    rw [List.countP_map]
    refine List.countP_congr fun e _ => ?_
    rw [Function.comp_apply]
    obtain he | ⟨-, he⟩ := hf e
    · rw [he]
    · rw [he]
      exact Iff.rfl
  have hissuer : ∀ b, (setIssuer none (enterStopped s)).queue b = (s.queue b).map f := hqueue
  simp only [waitingProbes, hissuer, hcount]

/-- R124: each client's WAITING probes leave its count. -/
theorem resetQueueEntries_probes (s : State) (j : Client) :
    (resetQueueEntries s).probes j = s.probes j - waitingProbes s j := by
  unfold resetQueueEntries
  rw [State.setQueue_probes, State.setQueue_probes]
  unfold allClients
  simp only [List.foldl_cons, List.foldl_nil, State.setProbes_probes]
  revert j
  simp [Fin.forall_fin_succ]

theorem afterReset_eq (e : Entry) : e.afterReset =
    if e.kind = .write then { e with origin := .detached } else { e with discarded := true } := by
  unfold Entry.afterReset
  cases e.kind <;> rfl

/-! ### RESET_SCHEDULE (R105) -/

/-- R105: the tables once the schedule is stopped, the queues are emptied and the batches ended. -/
def resetTables (s : State) : Work :=
  resetBatchesAndStore (begin (resetQueueEntries (setIssuer none (enterStopped s))).draw)

/-- R105, R106: the report, after the tables. -/
def resetReport (k : Client) (s : State) : Work :=
  reportSchedule .reset (some k) (begin (resetTables s).st)

/-- R105: RESET_SCHEDULE, with the records of its blocks in their two orders. -/
def resetWork (k : Client) (s : State) : Work :=
  { st := (resetReport k s).st.draw.draw
    out := freeMerge (resetReport k s).st.draw.draws
      (freeMerge (setIssuer none (enterStopped s)).draws (resetOffers s 0) (resetOffers s 1))
      (freeMerge (resetTables s).st.draws (resetTables s).out (resetReport k s).out) }

theorem ruleOf_resetSchedule {k : Client} {tag : Byte} {s : State}
    (htoken : s.claims.token = some k) :
    ruleOf (.resetSchedule k tag) s = answer (resetWork k s) .ok :=
  ruleOf_withToken (body := serveResetSchedule k) rfl htoken rfl

theorem resetReport_st (k : Client) (s : State) :
    (resetReport k s).st = (resetTables s).st := reportSchedule_st ..

theorem resetTables_batches (s : State) : (resetTables s).st.batches =
    { (s.batches.sealList.foldl resetBatch
        (begin (resetQueueEntries (setIssuer none (enterStopped s))).draw)).st.batches with
      sealList := [] } := by
  have hlist : (resetQueueEntries (setIssuer none (enterStopped s))).draw.batches = s.batches := by
    simp [State.draw]
  unfold resetTables resetBatchesAndStore
  rw [Work.update_st]
  simp only [begin, hlist]
  rfl

theorem resetTables_gen (s : State) : (resetTables s).st.gen = stopped s.gen := by
  unfold resetTables
  rw [resetBatchesAndStore_gen]
  have : (resetQueueEntries (setIssuer none (enterStopped s))).gen = stopped s.gen := by
    rw [resetQueueEntries_gen, stopped_frame]
  exact this

theorem resetTables_out {s : State} (h : s.batches.sealList.Nodup) :
    (resetTables s).out = s.batches.sealList.filterMap (resetDone s) := by
  have hbatches :
      (resetQueueEntries (setIssuer none (enterStopped s))).draw.batches = s.batches := by
    simp [State.draw]
  have hc : (resetQueueEntries (setIssuer none (enterStopped s))).draw.gen.c = s.gen.c := by
    rw [State.draw_gen, resetQueueEntries_gen, stopped_frame]
    rfl
  unfold resetTables resetBatchesAndStore
  generalize (resetQueueEntries (setIssuer none (enterStopped s))).draw = u at hbatches hc
  refine (resetBatches_out u.batches.sealList (begin u) (hbatches ▸ h)).trans ?_
  rw [hbatches]
  refine List.filterMap_congr fun r _ =>
    resetDone_congr (sealedContext_of_batches hbatches r) hc fun n _ => ?_
  exact congrArg (fun B : BatchTable => (B.context[r.client.val])[n.val]) hbatches

/-- R106: a report on the tables `t`, which hold the event queues and C of `s`. -/
theorem report_out {s t : State} (r : Reason) (k : Client) (hevents : t.events = s.events)
    (hc : t.gen.c = s.gen.c) : (reportSchedule r (some k) (begin t)).out =
      offersTo (fun j => (s.eventQueue j).sched || j == k) s
        (.scheduleState t.gen.run t.gen.mode r (some k) t.gen.c) := by
  have hoffers := offersTo_congr (·.sched) (fun j => j == k)
    (.scheduleState t.gen.run t.gen.mode r (some k) t.gen.c) hevents hc
  rw [reportSchedule_out, ← hoffers]
  simp only [begin, List.nil_append, cause_eq]

theorem resetTables_events (s : State) : (resetTables s).st.events = s.events := by
  unfold resetTables
  rw [resetBatchesAndStore_events]
  simp only [begin, State.draw_events, resetQueueEntries_events, setIssuer_events,
    enterStopped_events]

theorem resetReport_out (k : Client) (s : State) : (resetReport k s).out =
    offersTo (fun j => (s.eventQueue j).sched || j == k) s
      (.scheduleState .stopped s.gen.mode .reset (some k) s.gen.c) := by
  have hgen := resetTables_gen s
  have hout := report_out .reset k (resetTables_events s) (by rw [hgen]; rfl)
  rw [hgen] at hout
  exact hout

/-! ### What a client is told -/

/-- The events that a list of offers holds for one client. -/
def told (j : Client) (out : List Offer) : List Event :=
  (out.filter (·.client == j)).map (·.event)

theorem told_freeMerge_perm (j : Client) (d : Nat) (a b : List Offer) :
    (told j (freeMerge d a b)).Perm (told j a ++ told j b) := by
  have h := ((mergeBy_perm (Config.firstBlockFirst d) (a.length + b.length) a b).filter
    (·.client == j)).map (·.event)
  rwa [List.filter_append, List.map_append] at h

theorem told_left_sublist (j : Client) (d : Nat) (a b : List Offer) :
    (told j a).Sublist (told j (freeMerge d a b)) :=
  ((left_sublist_mergeBy ..).filter _).map _

theorem told_right_sublist (j : Client) (d : Nat) (a b : List Offer) :
    (told j b).Sublist (told j (freeMerge d a b)) :=
  ((right_sublist_mergeBy ..).filter _).map _

theorem mem_freeMerge {d : Nat} {a b : List Offer} {o : Offer} (h : o ∈ freeMerge d a b) :
    o ∈ a ∨ o ∈ b :=
  List.mem_append.mp ((mergeBy_perm _ _ a b).mem_iff.mp h)

theorem told_resetOffers (s : State) (b : BusNo) (j : Client) :
    told j (resetOffers s b) = droppedReports s b j := by
  refine events_of_offers (fun e => ?_) _
  unfold Entry.resetOffer
  cases e.kind <;> cases e.origin <;> cases e.slot <;> try rfl
  all_goals
    simp only [Option.filter_some, beq_iff_eq]
    split <;> rfl

theorem stamp_resetOffers {s : State} {b : BusNo} {o : Offer} (h : o ∈ resetOffers s b) :
    o.stamp = s.gen.c := by
  obtain ⟨e, -, he⟩ := List.mem_filterMap.mp h
  unfold Entry.resetOffer at he
  split at he <;> cases he <;> rfl

theorem stamp_resetDone {s : State} {r : BatchRef} {o : Offer} (h : resetDone s r = some o) :
    o.stamp = s.gen.c := by
  unfold resetDone at h
  obtain ⟨n, -, hn⟩ := Option.map_eq_some_iff.mp h
  rw [← hn]

/-- R59: the BATCH_DONE records of one client's sealed batches, in seal-list order. -/
def doneFor (s : State) (j : Client) : List Event :=
  (s.batches.sealList.filter (fun r => r.client == j)).filterMap (fun r =>
    (s.sealedContext r).map (fun n => (resetBooks (s.context j n)).doneEvent .reset))

theorem told_resetDone (s : State) (j : Client) :
    told j (s.batches.sealList.filterMap (resetDone s)) = doneFor s j := by
  unfold doneFor
  rw [List.filterMap_filter]
  refine events_of_offers (fun r => ?_) _
  unfold resetDone
  cases s.sealedContext r with
  | none => simp
  | some n =>
    rw [Option.map_some, Option.map_some, Option.filter_some]
    by_cases hj : r.client = j
    · rw [if_pos (by simpa using hj), if_pos (by simpa using hj), ← hj]
      rfl
    · rw [if_neg (by simpa using hj), if_neg (by simpa using hj)]
      rfl

theorem told_offersTo (p : Client → Bool) (s : State) (e : Event) (j : Client) :
    told j (offersTo p s e) = if p j then [e] else [] := by
  unfold told
  rw [offersTo_filter]
  cases p j <;> rfl

/-- R106: what the report tells one client. -/
def reportFor (k : Client) (s : State) (j : Client) : List Event :=
  if (s.eventQueue j).sched = true ∨ j = k
  then [.scheduleState .stopped s.gen.mode .reset (some k) s.gen.c] else []

theorem told_resetReport (k : Client) (s : State) (j : Client) :
    told j (resetReport k s).out = reportFor k s j := by
  rw [resetReport_out, told_offersTo, reportFor]
  simp only [Bool.or_eq_true, beq_iff_eq]

/-- R105: the records of the blocks, each in its own order. -/
theorem told_resetWork {k : Client} {s : State} (j : Client) (h : s.batches.sealList.Nodup) :
    (told j (resetWork k s).out).Perm
        (doneFor s j ++ droppedReports s 0 j ++ droppedReports s 1 j ++ reportFor k s j) ∧
      (doneFor s j).Sublist (told j (resetWork k s).out) ∧
      (droppedReports s 0 j).Sublist (told j (resetWork k s).out) ∧
      (droppedReports s 1 j).Sublist (told j (resetWork k s).out) := by
  unfold resetWork
  generalize (resetReport k s).st.draw.draws = d
  generalize (setIssuer none (enterStopped s)).draws = d0
  generalize (resetTables s).st.draws = d1
  have hdone : told j (resetTables s).out = doneFor s j := by
    rw [resetTables_out h, told_resetDone]
  have hqueues := told_freeMerge_perm j d0 (resetOffers s 0) (resetOffers s 1)
  have htables := told_freeMerge_perm j d1 (resetTables s).out (resetReport k s).out
  have hleft := told_left_sublist j d0 (resetOffers s 0) (resetOffers s 1)
  have hright := told_right_sublist j d0 (resetOffers s 0) (resetOffers s 1)
  have hbooks := told_left_sublist j d1 (resetTables s).out (resetReport k s).out
  rw [told_resetOffers, told_resetOffers] at hqueues
  rw [told_resetOffers] at hleft hright
  rw [hdone, told_resetReport] at htables
  rw [hdone] at hbooks
  refine ⟨((told_freeMerge_perm j d _ _).trans (hqueues.append htables)).trans ?_,
    hbooks.trans (told_right_sublist ..), hleft.trans (told_left_sublist ..),
    hright.trans (told_left_sublist ..)⟩
  rw [← List.append_assoc]
  refine List.Perm.append_right _ ?_
  rw [List.append_assoc (doneFor s j)]
  exact List.perm_append_comm

/-- The BATCH_DONE events among the events of a reset. -/
def batchDone? : Event → Option Event
  | .batchDone id outcome target onTime late failed discarded =>
      some (.batchDone id outcome target onTime late failed discarded)
  | _ => none

theorem batchDones_doneFor (s : State) (j : Client) :
    (doneFor s j).filterMap batchDone? = doneFor s j := by
  have hself : ∀ e ∈ doneFor s j, batchDone? e = some e := by
    intro e he
    obtain ⟨r, -, hr⟩ := List.mem_filterMap.mp he
    obtain ⟨n, -, hn⟩ := Option.map_eq_some_iff.mp hr
    rw [← hn]
    rfl
  rw [List.filterMap_congr hself, List.filterMap_some]

theorem batchDones_droppedReports (s : State) (b : BusNo) (j : Client) :
    (droppedReports s b j).filterMap batchDone? = [] := by
  rw [List.filterMap_eq_nil_iff]
  intro e he
  obtain ⟨x, -, hx⟩ := List.mem_filterMap.mp he
  split at hx
  · split at hx <;> cases hx
    rfl
  · split at hx <;> cases hx
    rfl
  · cases hx

theorem batchDones_reportFor (k : Client) (s : State) (j : Client) :
    (reportFor k s j).filterMap batchDone? = [] := by
  unfold reportFor
  split <;> rfl

/-- R59, R172: the BATCH_DONE records alone keep the order of the seal list. -/
theorem batchDones_of_perm {events : List Event} {k : Client} {s : State} {j : Client}
    (hperm : events.Perm
      (doneFor s j ++ droppedReports s 0 j ++ droppedReports s 1 j ++ reportFor k s j))
    (hsub : (doneFor s j).Sublist events) : events.filterMap batchDone? = doneFor s j := by
  have hcount := (hperm.filterMap batchDone?).length_eq
  simp only [List.filterMap_append, batchDones_doneFor, batchDones_droppedReports,
    batchDones_reportFor, List.append_nil] at hcount
  have horder := hsub.filterMap batchDone?
  rw [batchDones_doneFor] at horder
  exact (horder.eq_of_length hcount.symm).symm

theorem stamp_resetWork {k : Client} {s : State} (h : s.batches.sealList.Nodup) {o : Offer}
    (ho : o ∈ (resetWork k s).out) : o.stamp = s.gen.c := by
  obtain ho | ho := mem_freeMerge ho <;> obtain ho | ho := mem_freeMerge ho
  · exact stamp_resetOffers ho
  · exact stamp_resetOffers ho
  · rw [resetTables_out h] at ho
    obtain ⟨r, -, hr⟩ := List.mem_filterMap.mp ho
    exact stamp_resetDone hr
  · rw [resetReport_out] at ho
    obtain ⟨i, -, rfl⟩ := List.mem_map.mp ho
    rfl

theorem resetWork_st (k : Client) (s : State) :
    (resetWork k s).st = (resetTables s).st.draw.draw :=
  congrArg (fun u : State => u.draw.draw) (resetReport_st k s)

theorem resetWork_queue (k : Client) (s : State) (b : BusNo) :
    (resetWork k s).finish.queue b = ((s.queue b).filter (·.onBus)).map Entry.afterReset := by
  have hqueues : (resetWork k s).finish.queues =
      (resetQueueEntries (setIssuer none (enterStopped s))).queues := by
    rw [finish_queues, resetWork_st, State.draw_queues, State.draw_queues, resetTables,
      resetBatchesAndStore_queues]
    rfl
  obtain ⟨f, hf, hqueue⟩ := enterStopped_queue s
  have hstopped : (setIssuer none (enterStopped s)).queue b = (s.queue b).map f := hqueue b
  rw [State.queue, hqueues]
  refine (resetQueueEntries_queue _ b).trans ?_
  rw [hstopped, filter_onBus_marked hf]

theorem resetWork_probes (k : Client) (s : State) (j : Client) :
    (resetWork k s).finish.probes j = s.probes j - waitingProbes s j := by
  have hqueues : (resetWork k s).finish.queues =
      (resetQueueEntries (setIssuer none (enterStopped s))).queues := by
    rw [finish_queues, resetWork_st, State.draw_queues, State.draw_queues, resetTables,
      resetBatchesAndStore_queues]
    rfl
  have hprobes : (setIssuer none (enterStopped s)).probes j = s.probes j := by
    unfold enterStopped
    by_cases h : s.gen.run.inEpoch = true
    · rw [if_pos h]
      rfl
    · rw [if_neg h]
      rfl
  rw [State.probes, hqueues]
  refine (resetQueueEntries_probes _ j).trans ?_
  rw [hprobes, waitingProbes_stopped]

/-- R105: what a client whose queue does not fill is told. -/
theorem resetWork_records {k : Client} {s : State} (j : Client) (h : s.batches.sealList.Nodup)
    (hroom : ((resetWork k s).finish.eventQueue j).records.length < 16) :
    ∃ new : List EventRecord,
      ((resetWork k s).finish.eventQueue j).records = (s.eventQueue j).records ++ new ∧
      new.map (·.event) = told j (resetWork k s).out ∧ ∀ x ∈ new, x.stamp = s.gen.c := by
  have hst : (resetWork k s).st.eventQueue j = s.eventQueue j := by
    unfold State.eventQueue
    rw [resetWork_st, State.draw_events, State.draw_events, resetTables_events]
  have hqueue := (deliver_eventQueue (resetWork k s).st (resetWork k s).out j).trans
    (congrArg (takeAll · _) hst)
  have hfinish : (resetWork k s).finish.eventQueue j =
      takeAll (s.eventQueue j) ((resetWork k s).out.filter (·.client == j)) := hqueue
  rw [hfinish] at hroom ⊢
  obtain ⟨new, hnew, hevent, hstamp⟩ := takeAll_kept _ _ hroom
  refine ⟨new, hnew, hevent, fun x hx => ?_⟩
  have hmem : x.stamp ∈ new.map (·.stamp) := List.mem_map_of_mem hx
  rw [hstamp] at hmem
  obtain ⟨o, ho, ho'⟩ := List.mem_map.mp hmem
  exact ho' ▸ stamp_resetWork h (List.mem_of_mem_filter ho)

theorem resetWork_context (k : Client) (s : State) (j : Client) (n : Fin 4) :
    (resetWork k s).finish.context j n = (s.batches.sealList.foldl resetBatch
      (begin (resetQueueEntries (setIssuer none (enterStopped s))).draw)).st.context j n := by
  unfold State.context
  rw [finish_batches, resetWork_st, State.draw_batches, State.draw_batches, resetTables_batches]

/-- Settles O28: block by block, and the records of a client in the order of each block. -/
theorem resetScheduleEmptiesTheSchedule : Obligations.ResetScheduleEmptiesTheSchedule := by
  intro k tag s h htoken
  have hbatches :
      (resetQueueEntries (setIssuer none (enterStopped s))).draw.batches = s.batches := by
    simp [State.draw]
  have hcontext : ∀ (j : Client) (n : Fin 4),
      (begin (resetQueueEntries (setIssuer none (enterStopped s))).draw).st.context j n =
        s.context j n := fun j n =>
    congrArg (fun B : BatchTable => (B.context[j.val])[n.val]) hbatches
  have hlength : ∀ b, (resetWork k s).finish.queue b = ((s.queue b).filter (·.onBus)).map (fun e =>
      if e.kind = .write then { e with origin := .detached } else { e with discarded := true }) :=
    fun b => (resetWork_queue k s b).trans (List.map_congr_left fun e _ => afterReset_eq e)
  refine ⟨(resetWork k s).finish, exec_answers rfl h (ruleOf_resetSchedule htoken), ?_, ?_, ?_,
    hlength, fun b => ?_, fun j => resetWork_probes k s j, fun j n hn => ?_, fun r hr n hn => ?_,
    fun j hnodup hroom => ?_, ?_⟩
  · rw [finish_gen, resetWork_st, State.draw_gen, State.draw_gen, resetTables_gen]
    rfl
  · rw [finish_store, resetWork_st]
    rfl
  · rw [finish_batches, resetWork_st, State.draw_batches, State.draw_batches, resetTables_batches]
  · rw [hlength b]
    refine ⟨by rw [List.length_map, List.countP_eq_length_filter], fun e he => ?_⟩
    obtain ⟨x, hx, rfl⟩ := List.mem_map.mp he
    have hon := List.of_mem_filter hx
    split <;> exact hon
  · rw [resetWork_context, resetBatches_unsealed _ _ (by rw [hcontext]; exact hn), hcontext]
  · rw [resetWork_context]
    exact resetBatches_freed _ hr _ ((sealedContext_of_batches hbatches r).trans hn)
  · obtain ⟨new, hnew, hevent, hstamp⟩ := resetWork_records j hnodup hroom
    obtain ⟨hperm, hdone, hdropped0, hdropped1⟩ := told_resetWork (k := k) j hnodup
    have honly := batchDones_of_perm hperm hdone
    rw [← hevent] at hperm hdone hdropped0 hdropped1 honly
    refine ⟨new, doneFor s j, reportFor k s j, rfl, rfl, hnew, hstamp, hperm, hdone, hdropped0,
      hdropped1, ?_⟩
    rw [List.filterMap_map] at honly
    exact honly
  · have hprevious : (resetWork k s).finish.batches.previousId = s.batches.previousId := by
      rw [finish_batches, resetWork_st, State.draw_batches, State.draw_batches,
        resetTables_batches]
      exact (resetBatches_previousId ..).trans (congrArg BatchTable.previousId hbatches)
    have houtput : ∀ o, (resetWork k s).finish.output o = (s.output o).inactive := fun o => by
      refine (output_of_outputs ?_ o).trans (enterStopped_output s o)
      rw [finish_outputs, resetWork_st, State.draw_outputs, State.draw_outputs, resetTables,
        resetBatchesAndStore_outputs]
      simp only [begin, State.draw_outputs, resetQueueEntries_outputs, setIssuer_outputs]
    refine ⟨?_, ?_, ?_, ?_, ?_, ?_, hprevious, fun o => ?_⟩
    case refine_7 =>
      rw [houtput o]
      exact ⟨rfl, rfl, rfl⟩
    all_goals simp [resetWork_st, resetTables, begin]

end Sys2Proof.ScheduleReset

end


section
/-! PROOFS. DETACH at the claims, the batches, the queues and the events (R34, R60, R125, R165). -/

set_option Elab.async false

namespace Sys2Proof.Detaching

open Sys2Proof Sys2Proof.Machine Sys2Proof.Commands Sys2Proof.Requests Sys2Proof.ScheduleEvents
open Sys2Proof.Schedule Sys2Proof.Pieces Sys2Proof.Refills

/-! ### What enters a freed place (R73, R97) -/

/-- R73, R97: what enters a queue by refill or placement: a WAITING WRITE or PRIME entry. -/
abbrev Enters (e : Entry) : Prop := e.onBus = false ∧ (e.kind = .write ∨ e.kind = .prime)

/-- A queue grown at its tail by entries that refill or placement bring. -/
abbrev Grown (q q' : List Entry) : Prop := ∃ tail : List Entry, q' = q ++ tail ∧ ∀ e ∈ tail, Enters e

theorem grown_refl (q : List Entry) : Grown q q := ⟨[], (List.append_nil q).symm, nofun⟩

theorem Grown.trans {q q' q'' : List Entry} (h : Grown q q') (h' : Grown q' q'') : Grown q q'' := by
  obtain ⟨tail, rfl, htail⟩ := h
  obtain ⟨tail', rfl, htail'⟩ := h'
  exact ⟨tail ++ tail', List.append_assoc .., fun e he =>
    (List.mem_append.mp he).elim (htail e) (htail' e)⟩

theorem grown_refill (b c : BusNo) (s : State) : Grown (s.queue c) ((refill b s).queue c) := by
  obtain ⟨hqueue, hother, -, -⟩ := refill_spec b s
  by_cases h : b = c
  · subst h
    refine ⟨_, hqueue, fun e he => ?_⟩
    obtain ⟨x, -, rfl⟩ := List.mem_map.mp he
    exact ⟨rfl, .inl rfl⟩
  · rw [hother c h]
    exact grown_refl _

theorem grown_placePrimes (c : BusNo) (s : State) :
    Grown (s.queue c) ((placePrimes s).queue c) ∧
      (placePrimes s).queues.probes = s.queues.probes := by
  unfold placePrimes
  refine List.foldlRecOn (motive := fun u : State => Grown (s.queue c) (u.queue c) ∧
    u.queues.probes = s.queues.probes) _ _ ⟨grown_refl _, rfl⟩ fun u ⟨hu, hprobes⟩ i _ => ?_
  obtain he | ⟨d, b, -, -, -, he⟩ := placePrime_cases u i
  · rw [he]
    exact ⟨hu, hprobes⟩
  · rw [he]
    refine ⟨hu.trans ?_, hprobes⟩
    by_cases h : b = c
    · subst h
      refine ⟨_, (State.setQueue_queue ..).trans (if_pos rfl), fun e he => ?_⟩
      rw [List.mem_singleton.mp he]
      exact ⟨rfl, .inr rfl⟩
    · have hsame := (State.setQueue_queue (s := u) b (u.queue b ++
        [slotEntry .prime i (u.slot i) d (u.slot i).live .priming]) c).trans (if_neg h)
      exact hsame ▸ grown_refl _

theorem grown_fillPlaces (b c : BusNo) (s : State) :
    Grown (s.queue c) ((fillPlaces b s).queue c) ∧
      (fillPlaces b s).queues.probes = s.queues.probes := by
  unfold fillPlaces
  dsimp only
  have hrefill := grown_refill b c s
  have hprobes := (refill_spec b s).2.2.1
  split
  · obtain ⟨hplace, hplaced⟩ := grown_placePrimes c (refill b s)
    exact ⟨hrefill.trans hplace, hplaced.trans hprobes⟩
  · exact ⟨hrefill, hprobes⟩

theorem fillPlaces_of_not_priming {b : BusNo} {s : State} (h : s.gen.run ≠ .priming) :
    fillPlaces b s = refill b s := by
  unfold fillPlaces
  dsimp only
  rw [refill_gen, if_neg h]

/-- R73: what a freed place lets in leaves the store its records. -/
theorem fillPlaces_records (b : BusNo) (s : State) :
    (fillPlaces b s).store.map (fun x => { x with state := .waiting }) =
      s.store.map (fun x => { x with state := .waiting }) := by
  have hrefill : (fillPlaces b s).store = (refill b s).store := by
    unfold fillPlaces
    dsimp only
    split
    · exact placePrimes_store _
    · rfl
  obtain ⟨f, hf, hstore⟩ := refill_moved b s
  rw [hrefill, hstore, List.map_map]
  refine List.map_congr_left fun x _ => ?_
  obtain hx | ⟨-, hx⟩ := hf x <;> rw [Function.comp_apply, hx]

/-! ### The queues (R125) -/

theorem withoutClient_append {k : Client} (q : List Entry) {tail : List Entry}
    (h : ∀ e ∈ tail, Enters e) : withoutClient k (q ++ tail) = withoutClient k q ++ tail := by
  have hkeep : tail.filter (fun e => !e.detachRemoves k) = tail := by
    refine List.filter_eq_self.mpr fun e he => ?_
    obtain ⟨-, hkind | hkind⟩ := h e he <;> simp [Entry.detachRemoves, hkind]
  have hsame : tail.map (fun e => if e.kind == .probe && e.isOf k then { e with discarded := true }
      else e) = tail := by
    refine (List.map_congr_left fun e he => ?_).trans (List.map_id tail)
    obtain ⟨-, hkind | hkind⟩ := h e he <;> simp [hkind]
  unfold withoutClient
  rw [List.filter_append, List.map_append, hkeep, hsame]

theorem probesGone_append {k : Client} (q : List Entry) {tail : List Entry}
    (h : ∀ e ∈ tail, Enters e) :
    (q ++ tail).countP (fun e => e.kind == .probe && e.detachRemoves k) =
      q.countP (fun e => e.kind == .probe && e.detachRemoves k) := by
  have hnone : tail.countP (fun e => e.kind == .probe && e.detachRemoves k) = 0 := by
    refine List.countP_eq_zero.mpr fun e he => ?_
    obtain ⟨-, hkind | hkind⟩ := h e he <;> simp [hkind]
  rw [List.countP_append, hnone, Nat.add_zero]

theorem withoutClient_eq (k : Client) (q : List Entry) : withoutClient k q =
    (q.filter (fun e => !(!e.onBus && (e.kind == .now || e.kind == .probe) && e.isOf k))).map
      (fun e => if e.kind = .probe ∧ e.isOf k = true then { e with discarded := true } else e) := by
  unfold withoutClient
  refine List.map_congr_left fun e _ => ?_
  simp only [Bool.and_eq_true, beq_iff_eq]

theorem waitingProbes_eq (s : State) (k : Client) : waitingProbes s k =
    (s.queue 0).countP (fun e => e.kind == .probe && e.detachRemoves k) +
      (s.queue 1).countP (fun e => e.kind == .probe && e.detachRemoves k) := by
  have hsame : (fun e : Entry => !e.onBus && e.kind == .probe && e.isOf k) =
      (fun e => e.kind == .probe && e.detachRemoves k) := by
    funext e
    unfold Entry.detachRemoves
    cases e.kind <;> cases e.onBus <;> rfl
  unfold waitingProbes
  rw [hsame]

/-- R125: the state whose places bus `b`'s part of DETACH fills. -/
def cleared (k : Client) (s : State) (b : BusNo) : State :=
  (s.setProbes k (s.probes k -
    (s.queue b).countP (fun e => e.kind == .probe && e.detachRemoves k))).setQueue b
      (withoutClient k (s.queue b))

theorem detachQueue_eq (k : Client) (s : State) (b : BusNo) :
    detachQueue k s b = fillPlaces b (cleared k s b) := rfl

theorem cleared_queue (k : Client) (s : State) (b c : BusNo) : (cleared k s b).queue c =
    if b = c then withoutClient k (s.queue b) else s.queue c := State.setQueue_queue ..

/-- R125: bus `b`'s part of DETACH, on the queues. -/
theorem detachQueue_grown (k : Client) (s : State) (b c : BusNo) :
    Grown (if b = c then withoutClient k (s.queue b) else s.queue c)
      ((detachQueue k s b).queue c) := by
  rw [detachQueue_eq, ← cleared_queue k s b c]
  exact (grown_fillPlaces b c (cleared k s b)).1

theorem detachQueue_probes (k : Client) (s : State) (b : BusNo) (j : Client) :
    (detachQueue k s b).probes j = if k = j then s.probes k -
      (s.queue b).countP (fun e => e.kind == .probe && e.detachRemoves k) else s.probes j := by
  have hprobes := (grown_fillPlaces b b (cleared k s b)).2
  rw [detachQueue_eq, State.probes, hprobes]
  exact State.setProbes_probes ..

theorem detachQueue_records (k : Client) (s : State) (b : BusNo) :
    (detachQueue k s b).store.map (fun x => { x with state := .waiting }) =
      s.store.map (fun x => { x with state := .waiting }) := by
  rw [detachQueue_eq]
  exact fillPlaces_records b (cleared k s b)

/-- R73: outside PRIMING the places are filled by refill alone. -/
theorem detachQueue_refilled {k : Client} {s : State} {b : BusNo} (h : s.gen.run ≠ .priming) :
    detachQueue k s b = refill b (cleared k s b) := fillPlaces_of_not_priming h

theorem detachQueue_own {k : Client} {s : State} {b : BusNo} {kept : List Entry}
    (hkept : kept = withoutClient k (s.queue b)) (h : s.gen.run ≠ .priming) :
    (detachQueue k s b).queue b =
      kept ++ (enteringBehind s b kept).map (refillEntryFor s) := by
  have hself : (cleared k s b).queue b = kept := by
    rw [cleared_queue, if_pos rfl, hkept]
  rw [detachQueue_refilled h, (refill_spec b _).1, hself]
  rfl

theorem detachQueue_other {k : Client} {s : State} {b c : BusNo} (hne : b ≠ c)
    (h : s.gen.run ≠ .priming) :
    (detachQueue k s b).queue c = s.queue c ∧
      (detachQueue k s b).deferredSet c = s.deferredSet c := by
  rw [detachQueue_refilled h]
  refine ⟨((refill_spec b _).2.1 c hne).trans ?_, (refill_deferredSet hne _).trans rfl⟩
  rw [cleared_queue, if_neg hne]

/-! ### DETACH (R165) -/

/-- The claims and the OPEN batch leave the queues, the store and the generator alone. -/
theorem detachBatch_frame (k : Client) (s : State) :
    detachBatch k (detachClaims k s) = { s with
      claims := (detachClaims k s).claims,
      batches := (detachBatch k (detachClaims k s)).batches } := by
  have hclaims := detachClaims_frame k s
  generalize detachClaims k s = u at hclaims ⊢
  unfold detachBatch
  split
  · have hbatches : u.batches = s.batches := by rw [hclaims]
    rw [hbatches]
    exact hclaims
  · rw [hclaims]
    rfl

/-- R60: the OPEN batch becomes FREE. -/
theorem detachBatch_context (k : Client) (s : State) (j : Client) (n : Fin 4) :
    (detachBatch k s).context j n =
      if k = j ∧ s.openContext k = some n then Batch.empty else s.context j n := by
  unfold detachBatch
  cases h : s.openContext k with
  | none => rw [if_neg (by simp)]
  | some m =>
    rw [State.setContext_context]
    simp only [Option.some_inj]

theorem detachBatch_sealList (k : Client) (s : State) :
    (detachBatch k s).batches.sealList = s.batches.sealList := by
  unfold detachBatch
  split <;> rfl

theorem detachTables_grown (k : Client) (s : State) (b : BusNo) :
    Grown (withoutClient k (s.queue b)) ((detachTables k s).queue b) := by
  unfold detachTables
  have hsame : ∀ c, (detachBatch k (detachClaims k s)).queue c = s.queue c := fun c => by
    rw [detachBatch_frame]
    rfl
  generalize detachBatch k (detachClaims k s) = u at hsame
  obtain rfl | rfl := bus_cases b
  · have hfirst := detachQueue_grown k u 0 0
    have hsecond := detachQueue_grown k (detachQueue k u 0) 1 0
    rw [if_pos rfl, hsame] at hfirst
    exact hfirst.trans hsecond
  · obtain ⟨tail, hfirst, htail⟩ := detachQueue_grown k u 0 1
    have hsecond := detachQueue_grown k (detachQueue k u 0) 1 1
    rw [if_neg (by decide), hsame] at hfirst
    rw [if_pos rfl, hfirst, withoutClient_append _ htail] at hsecond
    exact Grown.trans ⟨tail, rfl, htail⟩ hsecond

theorem detachTables_probes (k : Client) (s : State) (j : Client) :
    (detachTables k s).probes j =
      if k = j then s.probes k - waitingProbes s k else s.probes j := by
  unfold detachTables
  have hqueue : ∀ c, (detachBatch k (detachClaims k s)).queue c = s.queue c := fun c => by
    rw [detachBatch_frame]
    rfl
  have hprobes : ∀ i, (detachBatch k (detachClaims k s)).probes i = s.probes i := fun i => by
    rw [detachBatch_frame]
    rfl
  generalize detachBatch k (detachClaims k s) = u at hqueue hprobes
  obtain ⟨tail, hfirst, htail⟩ := detachQueue_grown k u 0 1
  rw [if_neg (by decide), hqueue] at hfirst
  rw [detachQueue_probes, detachQueue_probes, detachQueue_probes, hfirst, probesGone_append _ htail,
    hqueue, hprobes, hprobes, if_pos rfl, waitingProbes_eq, Nat.sub_sub]
  split <;> rfl

theorem detachTables_refilled {k : Client} {s : State} {b : BusNo} {kept : List Entry}
    (hkept : kept = withoutClient k (s.queue b)) (h : s.gen.run ≠ .priming) :
    (detachTables k s).queue b = kept ++ (enteringBehind s b kept).map (refillEntryFor s) := by
  unfold detachTables
  have hframe := detachBatch_frame k s
  generalize detachBatch k (detachClaims k s) = u at hframe
  have hqueue : ∀ c, u.queue c = s.queue c := fun c => by rw [hframe]; rfl
  have hset : ∀ c, u.deferredSet c = s.deferredSet c := fun c => by rw [hframe]; rfl
  have hentry : refillEntryFor u = refillEntryFor s := by rw [hframe]; rfl
  have hrun : u.gen.run ≠ .priming := by rw [hframe]; exact h
  have hnext : (detachQueue k u 0).gen.run ≠ .priming := by
    rw [detachQueue_refilled hrun, refill_gen]
    exact hrun
  obtain rfl | rfl := bus_cases b
  · rw [(detachQueue_other (by decide) hnext).1, detachQueue_own (hqueue 0 ▸ hkept) hrun, hentry]
    unfold enteringBehind
    rw [hset]
  · obtain ⟨hother, hdeferred⟩ := detachQueue_other (k := k) (b := 0) (c := 1) (by decide) hrun
    have hentry' : refillEntryFor (detachQueue k u 0) = refillEntryFor s := by
      rw [← hentry, detachQueue_refilled hrun]
      exact refillEntryFor_congr (refill_slots ..) (refill_gen ..)
    rw [detachQueue_own (kept := kept) (by rw [hother, hqueue]; exact hkept) hnext, hentry']
    unfold enteringBehind
    rw [hdeferred, hset]

theorem detachTables_records (k : Client) (s : State) :
    (detachTables k s).store.map (fun x => { x with state := .waiting }) =
      s.store.map (fun x => { x with state := .waiting }) := by
  unfold detachTables
  rw [detachQueue_records, detachQueue_records, detachBatch_frame]

/-- R125: no WAITING NOW or PROBE entry of the client stays. -/
theorem withoutClient_removes {k : Client} {q : List Entry} {e : Entry} (he : e ∈ withoutClient k q)
    (hwaits : e.onBus = false) (hkind : e.kind = .now ∨ e.kind = .probe) : e.isOf k = false := by
  obtain ⟨x, hx, rfl⟩ := List.mem_map.mp he
  have hstays := List.of_mem_filter hx
  have hall : x.onBus = false → (x.kind = .now ∨ x.kind = .probe) → x.isOf k = false := by
    intro hon hk
    cases hof : x.isOf k with
    | false => rfl
    | true => obtain hk | hk := hk <;> simp [Entry.detachRemoves, hon, hk, hof] at hstays
  split at hwaits <;> split at hkind <;> split <;> exact hall hwaits hkind

/-- R125: the ON_BUS entries stay, the client's probes among them discarded. -/
theorem withoutClient_onBus (k : Client) (q : List Entry) :
    (withoutClient k q).filter (·.onBus) = (q.filter (·.onBus)).map (fun e =>
      if e.kind = .probe ∧ e.isOf k = true then { e with discarded := true } else e) := by
  rw [withoutClient_eq, List.filter_map, List.filter_filter]
  refine congrArg _ (List.filter_congr fun e _ => ?_)
  have hon : ((·.onBus) ∘ fun e : Entry =>
      if e.kind = .probe ∧ e.isOf k = true then { e with discarded := true } else e) e = e.onBus := by
    rw [Function.comp_apply]
    split <;> rfl
  rw [hon]
  cases e.onBus <;> simp

theorem filter_onBus_of_enters {tail : List Entry} (h : ∀ e ∈ tail, Enters e) :
    tail.filter (·.onBus) = [] :=
  List.filter_eq_nil_iff.mpr fun e he => by simp [(h e he).1]

/-- R165: DETACH leaves everything but the claims, the batches, the records' states, the prime list, the
queues and the client's events. -/
theorem detachTables_rest (k : Client) (s : State) :
    (detachTables k s).slots = s.slots ∧ (detachTables k s).buses = s.buses ∧
      (detachTables k s).outputs = s.outputs ∧ (detachTables k s).host = s.host ∧
      (detachTables k s).phase = s.phase ∧ (detachTables k s).pending = s.pending ∧
      (detachTables k s).events = s.events ∧
      (detachTables k s).claims = (detachClaims k s).claims ∧
      (detachTables k s).batches = (detachBatch k (detachClaims k s)).batches := by
  have hframe := detachBatch_frame k s
  unfold detachTables
  generalize detachBatch k (detachClaims k s) = u at hframe
  simp only [detachQueue_slots, detachQueue_buses, detachQueue_outputs, detachQueue_host,
    detachQueue_phase, detachQueue_pending, detachQueue_events, detachQueue_claims,
    detachQueue_batches, and_true]
  rw [hframe]
  exact ⟨rfl, rfl, rfl, rfl, rfl, rfl, rfl, rfl⟩

theorem detachTables_gen {k : Client} {s : State} (h : s.gen.run ≠ .priming) :
    (detachTables k s).gen = s.gen := by
  have hframe : (detachBatch k (detachClaims k s)).gen = s.gen := by rw [detachBatch_frame]
  unfold detachTables
  generalize detachBatch k (detachClaims k s) = u at hframe
  rw [← hframe] at h
  have hfirst : (detachQueue k u 0).gen = u.gen := by
    rw [detachQueue_refilled h, refill_gen]
    rfl
  rw [detachQueue_refilled (hfirst ▸ h), refill_gen]
  exact hfirst.trans hframe

theorem openContext_of_batches {s t : State} (h : t.batches = s.batches) (k : Client) :
    t.openContext k = s.openContext k := by
  unfold State.openContext State.findContext State.context
  rw [h]

theorem detachTables_context (k : Client) (s : State) (j : Client) (n : Fin 4) :
    (detachTables k s).context j n =
      if k = j ∧ s.openContext k = some n then Batch.empty else s.context j n := by
  obtain ⟨-, -, -, -, -, -, -, -, hbatches⟩ := detachTables_rest k s
  have hclaims : (detachClaims k s).batches = s.batches := by rw [detachClaims_frame]
  have hcontext : ∀ (u v : State), u.batches = v.batches → u.context j n = v.context j n :=
    fun u v h => congrArg (fun B : BatchTable => (B.context[j.val])[n.val]) h
  rw [hcontext _ _ hbatches, detachBatch_context, openContext_of_batches hclaims,
    hcontext _ _ hclaims]

/-- Settles O47: the claims, the batch, the two queues and the events in turn. -/
theorem detachGivesUpStandingState : Obligations.DetachGivesUpStandingState := by
  intro k tag s h
  obtain ⟨hslots, hbuses, houtputs, hhost, hphase, hpending, hevents, hclaims, hbatches⟩ :=
    detachTables_rest k s
  obtain ⟨l, -, hgen⟩ := detachClient_gen k s
  have hdetach := detachClient_eq k s
  have hrecords := detachTables_records k s
  have hgrown := detachTables_grown k s
  have hprobes := detachTables_probes k s
  have hcontext := detachTables_context k s
  have hrefilled : ∀ b, s.gen.run ≠ .priming → ∀ kept, kept = withoutClient k (s.queue b) →
      (detachTables k s).queue b = kept ++ (enteringBehind s b kept).map (refillEntryFor s) :=
    fun b hrun kept hkept => detachTables_refilled hkept hrun
  have hstill := detachTables_gen (k := k) (s := s)
  have hqueues : ∀ j, (detachTables k s).eventQueue j = s.eventQueue j := fun j => by
    rw [State.eventQueue, hevents]
    rfl
  have howner : ∀ i, (detachTables k s).owner i = (detachClaims k s).owner i := fun i => by
    rw [State.owner, hclaims]
    rfl
  have hlease : ∀ j, (detachTables k s).lease j = (detachClaims k s).lease j := fun j => by
    rw [State.lease, hclaims]
    rfl
  have hlist : (detachTables k s).batches.sealList = s.batches.sealList := by
    rw [hbatches, detachBatch_sealList, detachClaims_frame]
  refine ⟨detachClient k s, exec_changes rfl h rfl, ?_⟩
  rw [hdetach, State.setEventQueue_gen] at hgen
  rw [hdetach]
  generalize detachTables k s = u at *
  refine ⟨fun i => (howner i).trans (detachClaims_owner k s i),
    (congrArg ClaimTable.token hclaims).trans (detachClaims_token k s),
    (hlease k).trans ((detachClaims_lease k s k).trans (if_pos rfl)),
    fun j hj => (hlease j).trans ((detachClaims_lease k s j).trans (if_neg hj.symm)),
    fun n hn => (hcontext k n).trans (if_pos ⟨rfl, openContext_eq hn⟩),
    fun j n hjn => (hcontext j n).trans (if_neg ?_), ?_, fun j hj => ?_, fun b e he => ?_,
    fun b => ?_, fun b kept hkept => ⟨?_, fun hrun => ?_⟩, (hprobes k).trans (if_pos rfl),
    fun j hj => (hprobes j).trans (if_neg hj.symm), hslots, hlist, hbuses, houtputs, hhost, hphase,
    hpending, hrecords, ?_, fun hrun => ?_⟩
  · rintro ⟨rfl, hopen⟩
    exact hjn.elim (· rfl) (· (openContext_opened hopen))
  · rw [State.setEventQueue_eventQueue, if_pos rfl, hqueues]
    rfl
  · rw [State.setEventQueue_eventQueue, if_neg hj.symm, hqueues]
  · obtain ⟨tail, hqueue, htail⟩ := hgrown b
    have hmem : e ∈ u.queue b := he
    rw [hqueue] at hmem
    intro hwaits hkind
    obtain hmem | hmem := List.mem_append.mp hmem
    · exact withoutClient_removes hmem hwaits hkind
    · obtain ⟨-, hk | hk⟩ := htail e hmem <;> simp [hk] at hkind
  · obtain ⟨tail, hqueue, htail⟩ := hgrown b
    refine (congrArg (List.filter (·.onBus)) hqueue).trans ?_
    rw [List.filter_append, withoutClient_onBus, filter_onBus_of_enters htail, List.append_nil]
  · obtain ⟨tail, hqueue, htail⟩ := hgrown b
    exact ⟨tail, hkept ▸ (withoutClient_eq k (s.queue b)) ▸ hqueue, htail⟩
  · exact hrefilled b hrun kept (hkept.trans (withoutClient_eq k (s.queue b)).symm)
  · exact hgen.trans (by rw [State.setEventQueue_gen, hgen])
  · exact hstill hrun

end Sys2Proof.Detaching

end


section
/-! PROOFS. The books of the batches after several records are resolved in turn (R51, R52, R76). -/

set_option Elab.async false

namespace Sys2Proof.BookSequences

open Sys2Proof Sys2Proof.Machine Sys2Proof.Pieces Sys2Proof.SealedBooks

/-! ### What is logged -/

/-- The records that an event resolves in turn, each with its batch and its outcome; an entry that resolves
none takes its place. -/
abbrev Log := List (Option (BatchRef × RecordOutcome))

/-- The batches of a log, in order. -/
def refsOf (log : Log) : List (Option BatchRef) := log.map (·.map Prod.fst)

/-- The outcome that one entry of a log brings to batch `r`. -/
def outcomeFor (r : BatchRef) : Option (BatchRef × RecordOutcome) → Option RecordOutcome
  | some (q, o) => if q = r then some o else none
  | none => none

/-- The outcomes that a log brings to batch `r`, in order. -/
def outcomesOf (r : BatchRef) (log : Log) : List RecordOutcome := log.filterMap (outcomeFor r)

theorem refsOf_append (a b : Log) : refsOf (a ++ b) = refsOf a ++ refsOf b := List.map_append

theorem length_refsOf (log : Log) : (refsOf log).length = log.length := List.length_map ..

theorem outcomesOf_append (r : BatchRef) (a b : Log) :
    outcomesOf r (a ++ b) = outcomesOf r a ++ outcomesOf r b := List.filterMap_append

theorem outcomesOf_self (r : BatchRef) (o : RecordOutcome) : outcomesOf r [some (r, o)] = [o] := by
  simp [outcomesOf, outcomeFor]

theorem outcomesOf_other {r q : BatchRef} (o : RecordOutcome) (h : q ≠ r) :
    outcomesOf r [some (q, o)] = [] := by
  simp [outcomesOf, outcomeFor, h]

theorem outcomesOf_none (r : BatchRef) : outcomesOf r [none] = [] := rfl

theorem count_refsOf (r : BatchRef) (log : Log) :
    (refsOf log).count (some r) = (outcomesOf r log).length := by
  induction log with
  | nil => rfl
  | cons x log ih =>
    have hx : (refsOf [x]).count (some r) = (outcomesOf r [x]).length := by
      cases x with
      | none => rfl
      | some y =>
        obtain ⟨q, o⟩ := y
        by_cases h : q = r
        · subst h
          rw [outcomesOf_self]
          simp [refsOf]
        · rw [outcomesOf_other o h]
          simp [refsOf, h]
    have happend : x :: log = [x] ++ log := rfl
    rw [happend, refsOf_append, outcomesOf_append, List.count_append, List.length_append, ih, hx]

/-! ### Tallies (R51) -/

theorem tally_unresolved (b : Batch) (o : RecordOutcome) :
    (b.tally o).unresolved = b.unresolved - 1 := by
  cases o <;> rfl

theorem tally_name (b : Batch) (o : RecordOutcome) :
    (b.tally o).state = b.state ∧ (b.tally o).id = b.id := by
  cases o <;> exact ⟨rfl, rfl⟩

/-- The books of a batch that several outcomes are counted in. -/
def tallied (b : Batch) (os : List RecordOutcome) : Batch := os.foldl Batch.tally b

theorem tallied_append (b : Batch) (os : List RecordOutcome) (o : RecordOutcome) :
    tallied b (os ++ [o]) = (tallied b os).tally o := by
  simp [tallied, List.foldl_append]

theorem tallied_unresolved (b : Batch) : ∀ os : List RecordOutcome,
    (tallied b os).unresolved = b.unresolved - os.length := by
  intro os
  induction os generalizing b with
  | nil => rfl
  | cons o os ih =>
    refine (ih (b.tally o)).trans ?_
    rw [tally_unresolved, List.length_cons]
    omega

theorem tallied_name (b : Batch) (os : List RecordOutcome) :
    (tallied b os).state = b.state ∧ (tallied b os).id = b.id := by
  induction os generalizing b with
  | nil => exact ⟨rfl, rfl⟩
  | cons o os ih =>
    obtain ⟨hstate, hid⟩ := ih (b.tally o)
    exact ⟨hstate.trans (tally_name b o).1, hid.trans (tally_name b o).2⟩

theorem tallied_answers (b : Batch) (os : List RecordOutcome) (r : BatchRef) :
    Answers (tallied b os) r ↔ Answers b r := by
  obtain ⟨hstate, hid⟩ := tallied_name b os
  simp only [Answers, Batch.isSealed, hstate, hid]

/-! ### The books after a log -/

/-- R52: whether the log's `j`-th entry completes batch `r`. -/
def completes (s : State) (log : Log) (r : BatchRef) : Bool :=
  (List.range log.length).any (fun j => (s.completedAt (refsOf log) j).any (fun y => y.1 == r))

/-- No batch is resolved more often than it has unresolved records. -/
abbrev WithinBooks (s : State) (log : Log) : Prop :=
  ∀ (r : BatchRef) (n : Fin 4), s.sealedContext r = some n →
    (outcomesOf r log).length ≤ (s.context r.client n).unresolved

/-- R51, R52: the books of `u`, where the records of the log are resolved from `s` on. -/
structure BooksAfter (s : State) (log : Log) (u : State) : Prop where
  open_ : ∀ (r : BatchRef) (n : Fin 4), s.sealedContext r = some n →
    (outcomesOf r log).length < (s.context r.client n).unresolved →
    u.context r.client n = tallied (s.context r.client n) (outcomesOf r log)
  completed : ∀ (r : BatchRef) (n : Fin 4), s.sealedContext r = some n → outcomesOf r log ≠ [] →
    (outcomesOf r log).length = (s.context r.client n).unresolved →
    u.context r.client n = Batch.empty
  other : ∀ (k : Client) (n : Fin 4), (∀ r : BatchRef, r.client = k → s.sealedContext r = some n →
    outcomesOf r log = []) → u.context k n = s.context k n
  sealList : u.batches.sealList = s.batches.sealList.filter (fun r => !completes s log r)
  previousId : u.batches.previousId = s.batches.previousId

/-- R52: what the log's `j`-th entry offers. -/
def doneAt (s : State) (c : Epoch) (log : Log) (j : Nat) : List Offer :=
  (s.completedAt (refsOf log) j).toList.map (fun y =>
    batchDoneOf y.1 c (tallied y.2 (outcomesOf y.1 (log.take (j + 1)))))

theorem booksAfter_nil (s : State) : BooksAfter s [] s where
  open_ _ _ _ _ := rfl
  completed _ _ _ h _ := absurd rfl h
  other _ _ _ := rfl
  sealList := by simp [completes]
  previousId := rfl

theorem BooksAfter.of_batches {s u v : State} {log : Log} (h : BooksAfter s log u)
    (hbatches : v.batches = u.batches) : BooksAfter s log v := by
  have hcontext : ∀ k n, v.context k n = u.context k n := fun k n =>
    congrArg (fun B : BatchTable => (B.context[k.val])[n.val]) hbatches
  exact {
    open_ := fun r n hn hlt => (hcontext ..).trans (h.open_ r n hn hlt)
    completed := fun r n hn hne hlen => (hcontext ..).trans (h.completed r n hn hne hlen)
    other := fun k n hk => (hcontext ..).trans (h.other k n hk)
    sealList := hbatches ▸ h.sealList
    previousId := hbatches ▸ h.previousId }

/-- R52: earlier entries complete what they completed. -/
theorem completedAt_append {s : State} {l l' : List (Option BatchRef)} {j : Nat}
    (h : j < l.length) : s.completedAt (l ++ l') j = s.completedAt l j := by
  unfold State.completedAt
  rw [List.getElem?_append_left h, List.take_append_of_le_length (by omega)]

theorem completes_append (s : State) (log : Log) (x : Option (BatchRef × RecordOutcome))
    (r : BatchRef) : completes s (log ++ [x]) r =
      (completes s log r || (s.completedAt (refsOf (log ++ [x])) log.length).any (fun y =>
        y.1 == r)) := by
  have hearlier : ∀ j ∈ List.range log.length,
      s.completedAt (refsOf (log ++ [x])) j = s.completedAt (refsOf log) j := fun j hj => by
    rw [refsOf_append]
    exact completedAt_append (by rw [length_refsOf]; exact List.mem_range.mp hj)
  unfold completes
  rw [List.length_append, List.length_singleton, List.range_succ, List.any_append]
  simp only [List.any_cons, List.any_nil, Bool.or_false]
  refine congrArg (· || _) ?_
  rw [Bool.eq_iff_iff]
  simp only [List.any_eq_true]
  exact exists_congr fun j => and_congr_right fun hj => by rw [hearlier j hj]

/-- A batch that is not completed is found where it was. -/
theorem BooksAfter.sealedContext {s u : State} {log : Log} (h : BooksAfter s log u)
    (hbound : WithinBooks s log) {r : BatchRef}
    (hr : ∀ n, s.sealedContext r = some n →
      outcomesOf r log = [] ∨ (outcomesOf r log).length < (s.context r.client n).unresolved) :
    u.sealedContext r = s.sealedContext r := by
  refine sealedContext_congr fun m => ?_
  by_cases hother : ∀ q : BatchRef, q.client = r.client → s.sealedContext q = some m →
      outcomesOf q log = []
  · rw [h.other r.client m hother]
  · push Not at hother
    obtain ⟨q, hclient, hq, hsome⟩ := hother
    obtain hlt | heq := Nat.lt_or_eq_of_le (hbound q m hq)
    · rw [← hclient, h.open_ q m hq hlt]
      exact tallied_answers ..
    · rw [← hclient, h.completed q m hq hsome heq]
      refine iff_of_false (fun ⟨hs, _⟩ => by cases hs) fun ⟨_, hid⟩ => ?_
      obtain rfl : q = r := ref_eq hclient ((sealedContext_isSealed hq).2.symm.trans hid)
      obtain hnone | hlt := hr m hq
      · exact hsome hnone
      · omega

/-- R52: the last entry of a log completes its batch when it was the last one unresolved. -/
theorem completedAt_last (s : State) (log : Log) (r : BatchRef) (o : RecordOutcome) :
    s.completedAt (refsOf (log ++ [some (r, o)])) log.length =
      match s.sealedContext r with
      | some n => if (outcomesOf r log).length + 1 = (s.context r.client n).unresolved
        then some (r, s.context r.client n) else none
      | none => none := by
  have hget : (refsOf (log ++ [some (r, o)]))[log.length]? = some (some r) := by
    simp [refsOf]
  have hcount : ((refsOf (log ++ [some (r, o)])).take (log.length + 1)).count (some r) =
      (outcomesOf r log).length + 1 := by
    rw [List.take_of_length_le (by rw [length_refsOf, List.length_append]; exact Nat.le_refl _),
      count_refsOf, outcomesOf_append, outcomesOf_self, List.length_append]
    rfl
  unfold State.completedAt
  rw [hget]
  dsimp only
  cases s.sealedContext r with
  | none => rfl
  | some n => simp only [hcount]

theorem completedAt_last_none (s : State) (log : Log) :
    s.completedAt (refsOf (log ++ [none])) log.length = none := by
  have hget : (refsOf (log ++ [none]))[log.length]? = some none := by simp [refsOf]
  unfold State.completedAt
  rw [hget]

theorem withinBooks_append {s : State} {log : Log} {x : Option (BatchRef × RecordOutcome)}
    (h : WithinBooks s (log ++ [x])) : WithinBooks s log := fun r n hn => by
  refine Nat.le_trans ?_ (h r n hn)
  rw [outcomesOf_append, List.length_append]
  exact Nat.le_add_right _ _

/-- An entry that resolves no record leaves the books. -/
theorem BooksAfter.skip {s u : State} {log : Log} (h : BooksAfter s log u) :
    BooksAfter s (log ++ [none]) u := by
  have hsame : ∀ r, outcomesOf r (log ++ [none]) = outcomesOf r log := fun r => by
    rw [outcomesOf_append, outcomesOf_none, List.append_nil]
  have hcompletes : ∀ r, completes s (log ++ [none]) r = completes s log r := fun r => by
    rw [completes_append, completedAt_last_none]
    exact Bool.or_false _
  refine ⟨fun r n hn => ?_, fun r n hn => ?_, fun k n hk => ?_, ?_, h.previousId⟩
  · rw [hsame]
    exact h.open_ r n hn
  · rw [hsame]
    exact h.completed r n hn
  · exact h.other k n fun r hr hn => (hsame r).symm.trans (hk r hr hn)
  · simp only [hcompletes]
    exact h.sealList

/-- R76: the record of a batch that is not sealed is counted nowhere. -/
theorem BooksAfter.unsealed {s u : State} {log : Log} {r : BatchRef} (o : RecordOutcome)
    (h : BooksAfter s log u) (hr : s.sealedContext r = none) :
    BooksAfter s (log ++ [some (r, o)]) u := by
  have hsame : ∀ q n, s.sealedContext q = some n →
      outcomesOf q (log ++ [some (r, o)]) = outcomesOf q log := fun q n hq => by
    have hne : r ≠ q := by
      rintro rfl
      rw [hr] at hq
      cases hq
    rw [outcomesOf_append, outcomesOf_other o hne, List.append_nil]
  have hcompletes : ∀ q, completes s (log ++ [some (r, o)]) q = completes s log q := fun q => by
    rw [completes_append, completedAt_last, hr]
    exact Bool.or_false _
  refine ⟨fun q n hq => ?_, fun q n hq => ?_, fun k n hk => ?_, ?_, h.previousId⟩
  · rw [hsame q n hq]
    exact h.open_ q n hq
  · rw [hsame q n hq]
    exact h.completed q n hq
  · exact h.other k n fun q hk' hq => (hsame q n hq).symm.trans (hk q hk' hq)
  · simp only [hcompletes]
    exact h.sealList

/-- R51, R52: a record is counted in the books of its batch, which stays open or, with no other record
unresolved, becomes FREE and leaves the seal list. -/
theorem BooksAfter.counted {s u v : State} {log : Log} {r : BatchRef} {n : Fin 4} {b : Batch}
    (o : RecordOutcome) (h : BooksAfter s log u) (hn : s.sealedContext r = some n)
    (hcontext : ∀ j i, v.context j i = if r.client = j ∧ n = i then b else u.context j i)
    (hopen : (outcomesOf r log).length + 1 < (s.context r.client n).unresolved →
      b = tallied (s.context r.client n) (outcomesOf r (log ++ [some (r, o)])) ∧
      v.batches.sealList = u.batches.sealList)
    (hlast : (outcomesOf r log).length + 1 = (s.context r.client n).unresolved →
      b = Batch.empty ∧ v.batches.sealList = u.batches.sealList.filter (· != r))
    (hwithin : (outcomesOf r log).length + 1 ≤ (s.context r.client n).unresolved)
    (hprevious : v.batches.previousId = u.batches.previousId) :
    BooksAfter s (log ++ [some (r, o)]) v := by
  have hsame : ∀ q, q ≠ r → outcomesOf q (log ++ [some (r, o)]) = outcomesOf q log :=
    fun q hq => by rw [outcomesOf_append, outcomesOf_other o hq.symm, List.append_nil]
  have hown : (outcomesOf r (log ++ [some (r, o)])).length = (outcomesOf r log).length + 1 := by
    rw [outcomesOf_append, outcomesOf_self, List.length_append]
    rfl
  have hrest : ∀ q m, s.sealedContext q = some m → q ≠ r →
      v.context q.client m = u.context q.client m := fun q m hq hne =>
    (hcontext ..).trans (if_neg (sealedContext_ne hn hq hne))
  refine ⟨fun q m hq hlt => ?_, fun q m hq hne heq => ?_, fun k m hk => ?_, ?_,
    hprevious.trans h.previousId⟩
  · by_cases hqr : q = r
    · subst hqr
      obtain rfl : n = m := Option.some.inj (hn.symm.trans hq)
      exact ((hcontext ..).trans (if_pos ⟨rfl, rfl⟩)).trans (hopen (hown ▸ hlt)).1
    · rw [hrest q m hq hqr, hsame q hqr]
      exact h.open_ q m hq (hsame q hqr ▸ hlt)
  · by_cases hqr : q = r
    · subst hqr
      obtain rfl : n = m := Option.some.inj (hn.symm.trans hq)
      exact ((hcontext ..).trans (if_pos ⟨rfl, rfl⟩)).trans (hlast (hown ▸ heq)).1
    · rw [hrest q m hq hqr]
      rw [hsame q hqr] at hne heq
      exact h.completed q m hq hne heq
  · have hat : ¬ (r.client = k ∧ n = m) := by
      rintro ⟨rfl, rfl⟩
      rw [hk r rfl hn] at hown
      cases hown
    rw [hcontext, if_neg hat]
    refine h.other k m fun q hqk hq => ?_
    by_cases hqr : q = r
    · subst hqr
      exact absurd ⟨hqk, Option.some.inj (hn.symm.trans hq)⟩ hat
    · exact (hsame q hqr).symm.trans (hk q hqk hq)
  · have hcompletes : ∀ q, completes s (log ++ [some (r, o)]) q = (completes s log q ||
        decide ((outcomesOf r log).length + 1 = (s.context r.client n).unresolved) && r == q) :=
      fun q => by
        rw [completes_append, completedAt_last, hn]
        dsimp only
        split <;> simp_all
    simp only [hcompletes]
    obtain hlt | heq := Nat.lt_or_eq_of_le hwithin
    · rw [(hopen hlt).2, h.sealList]
      simp only [Nat.ne_of_lt hlt, decide_false, Bool.false_and, Bool.or_false]
    · rw [(hlast heq).2, h.sealList, List.filter_filter]
      refine List.filter_congr fun q _ => ?_
      simp only [heq, decide_true, Bool.true_and, Bool.not_or, Bool.and_comm, bne]
      rw [BEq.comm]

theorem doneAt_last {s : State} {log : Log} {r : BatchRef} (c : Epoch) (o : RecordOutcome) :
    doneAt s c (log ++ [some (r, o)]) log.length =
      match s.sealedContext r with
      | some n => if (outcomesOf r log).length + 1 = (s.context r.client n).unresolved
        then [batchDoneOf r c (tallied (s.context r.client n)
          (outcomesOf r (log ++ [some (r, o)])))] else []
      | none => [] := by
  have hall : (log ++ [some (r, o)]).take (log.length + 1) = log ++ [some (r, o)] :=
    List.take_of_length_le (by rw [List.length_append]; exact Nat.le_refl _)
  unfold doneAt
  rw [completedAt_last, hall]
  cases s.sealedContext r with
  | none => rfl
  | some n =>
    dsimp only
    split <;> rfl

/-- R76: one more record is counted. -/
theorem booksAfter_countOutcome {s : State} {w : Work} {log : Log} {r : BatchRef}
    {o : RecordOutcome} (h : BooksAfter s log w.st)
    (hbound : WithinBooks s (log ++ [some (r, o)])) :
    BooksAfter s (log ++ [some (r, o)]) (countOutcome r o w).st ∧
      (countOutcome r o w).out =
        w.out ++ doneAt s w.st.gen.c (log ++ [some (r, o)]) log.length := by
  have hroom : ∀ n, s.sealedContext r = some n →
      (outcomesOf r log).length + 1 ≤ (s.context r.client n).unresolved := fun n hn => by
    have hle := hbound r n hn
    rwa [outcomesOf_append, outcomesOf_self, List.length_append] at hle
  have hsealed : w.st.sealedContext r = s.sealedContext r :=
    h.sealedContext (withinBooks_append hbound) fun n hn => .inr (hroom n hn)
  rw [doneAt_last]
  obtain ⟨hnone, he⟩ | ⟨n, b, hn, hb, hcases⟩ := countOutcome_cases r o w
  · rw [hsealed] at hnone
    rw [he, hnone]
    exact ⟨h.unsealed o hnone, (List.append_nil _).symm⟩
  · rw [hsealed] at hn
    have hlt := hroom n hn
    rw [h.open_ r n hn hlt] at hb
    have htallied : b = tallied (s.context r.client n) (outcomesOf r (log ++ [some (r, o)])) := by
      rw [hb, outcomesOf_append, outcomesOf_self, tallied_append]
    have hleft : b.unresolved =
        (s.context r.client n).unresolved - ((outcomesOf r log).length + 1) := by
      rw [hb, tally_unresolved, tallied_unresolved, Nat.sub_sub]
    rw [hn]
    dsimp only
    obtain ⟨hzero, he⟩ | ⟨hzero, he⟩ := hcases
    · have hlast : (outcomesOf r log).length + 1 = (s.context r.client n).unresolved := by omega
      rw [he, if_pos hlast, ← htallied]
      refine ⟨h.counted o hn (b := Batch.empty) (fun j i => State.setContext_context ..)
        (fun hne => absurd hlast (Nat.ne_of_lt hne)) (fun _ => ⟨rfl, rfl⟩) hlt rfl, ?_⟩
      rfl
    · have hmore : (outcomesOf r log).length + 1 ≠ (s.context r.client n).unresolved := by omega
      rw [he, if_neg hmore]
      refine ⟨h.counted o hn (b := b) (fun j i => State.setContext_context ..)
        (fun _ => ⟨htallied, rfl⟩) (fun heq => absurd heq hmore) hlt rfl, ?_⟩
      exact (List.append_nil _).symm

/-- R76: one more record leaves the store and is counted. -/
theorem booksAfter_resolve {s : State} {w : Work} {log : Log} {r : BatchRef} (position : Nat)
    {o : RecordOutcome} (h : BooksAfter s log w.st)
    (hbound : WithinBooks s (log ++ [some (r, o)])) :
    BooksAfter s (log ++ [some (r, o)]) (resolve r position o w).st ∧
      (resolve r position o w).out =
        w.out ++ doneAt s w.st.gen.c (log ++ [some (r, o)]) log.length :=
  booksAfter_countOutcome (w := w.update (removeRecord r position)) (h.of_batches rfl) hbound

theorem resolve_store (r : BatchRef) (position : Nat) (o : RecordOutcome) (w : Work) :
    (resolve r position o w).st.store =
      w.st.store.filter (fun x => !(x.batch == r && x.position == position)) := by
  unfold resolve
  rw [countOutcome_store]
  rfl

/-- R52: what a log offers, entry by entry. -/
def donesOf (s : State) (c : Epoch) (log : Log) : List Offer :=
  (List.range log.length).flatMap (doneAt s c log)

theorem donesOf_append (s : State) (c : Epoch) (log : Log)
    (x : Option (BatchRef × RecordOutcome)) :
    donesOf s c (log ++ [x]) = donesOf s c log ++ doneAt s c (log ++ [x]) log.length := by
  have hearlier : ∀ j ∈ List.range log.length,
      doneAt s c (log ++ [x]) j = doneAt s c log j := fun j hj => by
    have hlt := List.mem_range.mp hj
    unfold doneAt
    rw [refsOf_append, completedAt_append (by rw [length_refsOf]; exact hlt),
      List.take_append_of_le_length hlt]
  unfold donesOf
  rw [List.length_append, List.length_singleton, List.range_succ, List.flatMap_append,
    List.flatMap_singleton, List.flatMap_congr hearlier]

/-- R52: at its completion a batch has all its outcomes of the whole log. -/
theorem completedAt_whole {s : State} {log : Log} (hbound : WithinBooks s log) {j : Nat}
    {y : BatchRef × Batch} (hy : s.completedAt (refsOf log) j = some y) :
    (outcomesOf y.1 log).length = y.2.unresolved ∧
      outcomesOf y.1 (log.take (j + 1)) = outcomesOf y.1 log := by
  have hsome : ∃ n, s.sealedContext y.1 = some n ∧ y.2 = s.context y.1.client n ∧
      ((refsOf log).take (j + 1)).count (some y.1) = (s.context y.1.client n).unresolved := by
    unfold State.completedAt at hy
    split at hy
    · split at hy
      · split at hy
        · cases hy
          exact ⟨_, ‹_›, rfl, ‹_›⟩
        · cases hy
      · cases hy
    · cases hy
  obtain ⟨n, hn, hcontext, hcount⟩ := hsome
  have hsplit : outcomesOf y.1 log =
      outcomesOf y.1 (log.take (j + 1)) ++ outcomesOf y.1 (log.drop (j + 1)) := by
    rw [← outcomesOf_append, List.take_append_drop]
  have htake : ((refsOf log).take (j + 1)) = refsOf (log.take (j + 1)) := List.map_take.symm
  rw [htake, count_refsOf] at hcount
  have hle := hbound y.1 n hn
  have hlength := congrArg List.length hsplit
  rw [List.length_append] at hlength
  have hnil : outcomesOf y.1 (log.drop (j + 1)) = [] := List.eq_nil_of_length_eq_zero (by omega)
  rw [hnil, List.append_nil] at hsplit
  exact ⟨by rw [hsplit, hcount, hcontext], hsplit.symm⟩

theorem doneAt_whole {s : State} {log : Log} (c : Epoch) (hbound : WithinBooks s log) (j : Nat) :
    doneAt s c log j = (s.completedAt (refsOf log) j).toList.map (fun y =>
      batchDoneOf y.1 c (tallied y.2 (outcomesOf y.1 log))) := by
  unfold doneAt
  refine List.map_congr_left fun y hy => ?_
  rw [(completedAt_whole hbound (Option.mem_toList.mp hy)).2]

end Sys2Proof.BookSequences

end


section
/-! PROOFS. START: the drop of stale records, the placement of the slots to prime, and the beginning of the
schedule (R80, R96 to R98). -/

set_option Elab.async false

namespace Sys2Proof.Starts

open Sys2Proof Sys2Proof.Machine Sys2Proof.Commands Sys2Proof.Requests Sys2Proof.ScheduleEvents
open Sys2Proof.Schedule Sys2Proof.Rules Sys2Proof.Refills Sys2Proof.Stops Sys2Proof.ScheduleReset
open Sys2Proof.BookSequences

/-! ### The drop of stale records (R80, R81) -/

/-- Records dropped in turn. -/
def droppedLog (gone : List PendingRecord) : Log := gone.map (fun x => some (x.batch, .dropped))

theorem refsOf_droppedLog (gone : List PendingRecord) :
    refsOf (droppedLog gone) = gone.map (fun x => some x.batch) := by
  simp [refsOf, droppedLog]

theorem outcomesOf_droppedLog (r : BatchRef) (gone : List PendingRecord) :
    outcomesOf r (droppedLog gone) =
      List.replicate (gone.countP (fun x => x.batch == r)) .dropped := by
  induction gone with
  | nil => rfl
  | cons x gone ih =>
    have hsplit : droppedLog (x :: gone) = [some (x.batch, .dropped)] ++ droppedLog gone := rfl
    rw [hsplit, outcomesOf_append, ih, List.countP_cons]
    by_cases h : x.batch = r
    · subst h
      rw [outcomesOf_self, if_pos (by simp), List.replicate_succ]
      rfl
    · rw [outcomesOf_other _ h, if_neg (by simpa using h)]
      rfl

theorem tallied_dropped (b : Batch) (n : Nat) : tallied b (List.replicate n .dropped) =
    { b with dropped := b.dropped + n, unresolved := b.unresolved - n } := by
  induction n generalizing b with
  | zero => rfl
  | succ n ih =>
    rw [List.replicate_succ]
    refine (ih (b.tally .dropped)).trans ?_
    simp only [Batch.tally, Nat.sub_sub, Nat.add_assoc, Nat.add_comm 1 n]

/-- R80: each dropped record leaves the store and is counted in its batch. -/
theorem dropAll_spec {s : State} {w : Work} (hbatches : w.st.batches = s.batches)
    (hstore : w.st.store = s.store) (hc : w.st.gen.c = s.gen.c) (hout : w.out = [])
    (gone : List PendingRecord) :
    WithinBooks s (droppedLog gone) →
    ∀ v : Work, v = gone.foldl (fun w x => resolve x.batch x.position .dropped w) w →
    BooksAfter s (droppedLog gone) v.st ∧ v.out = donesOf s s.gen.c (droppedLog gone) ∧
      v.st.gen.c = s.gen.c ∧ v.st.store = s.store.filter (fun x =>
        !gone.any (fun y => x.batch == y.batch && x.position == y.position)) := by
  induction gone using List.reverseRecOn with
  | nil =>
    rintro - v rfl
    refine ⟨(booksAfter_nil s).of_batches hbatches, hout, hc, ?_⟩
    simpa using hstore
  | append_singleton gone x ih =>
    intro hbound v hv
    have hlog : droppedLog (gone ++ [x]) = droppedLog gone ++ [some (x.batch, .dropped)] :=
      List.map_append
    rw [hlog] at hbound ⊢
    rw [List.foldl_append] at hv
    obtain ⟨hbooks, hdone, hclock, hleft⟩ := ih (withinBooks_append hbound) _ rfl
    generalize gone.foldl (fun w x => resolve x.batch x.position .dropped w) w = u at *
    have hv : v = resolve x.batch x.position .dropped u := hv
    obtain ⟨hbooks', hdone'⟩ := booksAfter_resolve (w := u) x.position hbooks hbound
    refine ⟨hv ▸ hbooks', ?_, ?_, ?_⟩
    · rw [hv, hdone', hdone, donesOf_append, hclock]
    · rw [hv, resolve_gen, hclock]
    · have hremoved : v.st.store = u.st.store.filter (fun y =>
          !(y.batch == x.batch && y.position == x.position)) := by
        rw [hv, resolve_store]
      rw [hremoved, hleft, List.filter_filter]
      refine List.filter_congr fun y _ => ?_
      rw [List.any_append, Bool.not_or, Bool.and_comm]
      simp

theorem isStale_iff (start : Epoch) (x : PendingRecord) : isStale start x =
    (decide (x.state ≠ .released) && decide (240 < (x.dispatch - start).toNat)) := by
  unfold isStale
  cases x.state <;> rfl

/-- R63, R64: among distinct records, batch and position name one. -/
theorem record_eq_of_key {x y : PendingRecord} {l : List PendingRecord}
    (h : l.Pairwise (fun x y => (x.slot ≠ y.slot ∨ x.target ≠ y.target) ∧
      (x.batch ≠ y.batch ∨ x.position ≠ y.position))) (hx : x ∈ l) (hy : y ∈ l)
    (hbatch : x.batch = y.batch) (hposition : x.position = y.position) : x = y := by
  have hne : ∀ x y : PendingRecord, ((x.slot ≠ y.slot ∨ x.target ≠ y.target) ∧
      (x.batch ≠ y.batch ∨ x.position ≠ y.position)) →
      ¬ (x.batch = y.batch ∧ x.position = y.position) := fun x y hxy hkey =>
    hxy.2.elim (absurd hkey.1) (absurd hkey.2)
  exact List.Pairwise.forall_of_forall_of_flip
    (R := fun x y => x.batch = y.batch → x.position = y.position → x = y)
    (fun _ _ _ _ => rfl) (h.imp fun hxy hb hp => absurd ⟨hb, hp⟩ (hne _ _ hxy))
    (h.imp fun hxy hb hp => absurd ⟨hb.symm, hp.symm⟩ (hne _ _ hxy)) hx hy hbatch hposition

/-- R80: the records that are dropped are those that leave the store. -/
theorem dropped_store {s : State} {gone : List PendingRecord} (h : RecordsDistinct s)
    (hgone : ∀ x ∈ gone, x ∈ s.store) :
    s.store.filter (fun x => !gone.any (fun y => x.batch == y.batch && x.position == y.position)) =
      s.store.filter (fun x => !gone.contains x) := by
  refine List.filter_congr fun x hx => congrArg _ ?_
  rw [Bool.eq_iff_iff, List.any_eq_true, List.contains_iff_mem]
  constructor
  · rintro ⟨y, hy, hkey⟩
    simp only [Bool.and_eq_true, beq_iff_eq] at hkey
    exact record_eq_of_key h hx (hgone y hy) hkey.1 hkey.2 ▸ hy
  · exact fun hmem => ⟨x, hmem, by simp⟩

/-- R81: a second pass finds nothing stale. -/
theorem dropStale_of_fresh {start : Epoch} {w : Work}
    (h : ∀ x ∈ w.st.store, isStale start x = false) : dropStale start w = w := by
  unfold dropStale
  rw [List.filter_eq_nil_iff.mpr fun x hx => by simp [h x hx], List.foldl_nil]

/-! ### The placement of the slots to prime (R97) -/

/-- R97, R110: the PRIME entry of a slot. -/
def primeEntry (s : State) (i : SlotNo) : Entry :=
  { kind := .prime, device := (s.slot i).device.getD 0, register := (s.slot i).register,
    width := (s.slot i).width, order := (s.slot i).order, value := (s.slot i).live,
    slot := some i, deadline := none, late := false, attempts := 0, origin := .priming,
    discarded := false, onBus := false, stamp := none }

theorem placePrime_unplaced {s : State} {i : SlotNo}
    (h : ∀ b, s.slotBus i = some b → 32 ≤ (s.queue b).length) : placePrime s i = s := by
  unfold placePrime
  cases hd : (s.slot i).device with
  | none => rfl
  | some d =>
    have hfull := h (s.device d).bus (by simp [State.slotBus, hd])
    have hroom : ¬ s.hasRoom (s.device d).bus = true := fun hr =>
      absurd ((hasRoom_iff _ _).mp hr) (by omega)
    dsimp only
    rw [if_neg hroom]

theorem placePrime_placed {s : State} {i : SlotNo} {b : BusNo} (hb : s.slotBus i = some b)
    (hroom : (s.queue b).length < 32) : placePrime s i =
      (s.setQueue b (s.queue b ++ [primeEntry s i])).setGen
        { s.gen with primeList := s.gen.primeList.filter (· != i) } := by
  unfold placePrime
  cases hd : (s.slot i).device with
  | none => simp [State.slotBus, hd] at hb
  | some d =>
    obtain rfl : (s.device d).bus = b := by simpa [State.slotBus, hd] using hb
    have hr := (hasRoom_iff s (s.device d).bus).mpr hroom
    simp only [hr, if_true, append, primeEntry, slotEntry, hd, Option.getD_some]
    rfl

/-- R97: the slots of a list are placed while their buses have places; those placed leave the prime
list. -/
theorem placeAll_spec (is : List SlotNo) : ∀ (s t : State) (placed : BusNo → List SlotNo),
    t = is.foldl placePrime s →
    (∀ b, placed b = (is.filter (fun i => s.slotBus i == some b)).take
      (32 - (s.queue b).length)) →
    (∀ b, t.queue b = s.queue b ++ (placed b).map (primeEntry s)) ∧
    t = { s with
      gen := { s.gen with primeList := s.gen.primeList.filter (fun i =>
        !(placed 0).contains i && !(placed 1).contains i) },
      queues := { s.queues with queue := t.queues.queue } } := by
  induction is with
  | nil =>
    rintro s t placed rfl hplaced
    have hnone : ∀ b, placed b = [] := fun b => by
      rw [hplaced b, List.filter_nil, List.take_nil]
    refine ⟨fun b => by rw [hnone]; simp, ?_⟩
    rw [hnone, hnone]
    simp
  | cons i is ih =>
    intro s t placed ht hplaced
    rw [List.foldl_cons] at ht
    by_cases hin : ∃ b, s.slotBus i = some b ∧ (s.queue b).length < 32
    · obtain ⟨b, hb, hroom⟩ := hin
      rw [placePrime_placed hb hroom] at ht
      generalize hu : (s.setQueue b (s.queue b ++ [primeEntry s i])).setGen
        { s.gen with primeList := s.gen.primeList.filter (· != i) } = u at ht
      have hqueued : ∀ c, u.queue c =
          if b = c then s.queue b ++ [primeEntry s i] else s.queue c := fun c => by
        rw [← hu]
        exact State.setQueue_queue ..
      have hbus : u.slotBus = s.slotBus := by rw [← hu]; rfl
      have hentry : primeEntry u = primeEntry s := by rw [← hu]; rfl
      obtain ⟨rest, hrest⟩ : ∃ rest : BusNo → List SlotNo, ∀ c, rest c =
          if b = c then (placed c).drop 1 else placed c := ⟨_, fun _ => rfl⟩
      have hother : ∀ c, b ≠ c → ¬ (s.slotBus i == some c) = true := fun c hc hic =>
        hc (Option.some.inj (hb.symm.trans (by simpa using hic)))
      have hplacedb : placed b = i :: rest b := by
        have hsucc : 32 - (s.queue b).length = (32 - ((s.queue b).length + 1)) + 1 := by omega
        rw [hrest, if_pos rfl, hplaced b, List.filter_cons_of_pos (by simpa using hb), hsucc,
          List.take_succ_cons]
        rfl
      have hplacedc : ∀ c, b ≠ c → placed c = rest c := fun c hc => by rw [hrest, if_neg hc]
      obtain ⟨hqueue, hframe⟩ := ih u t rest ht fun c => by
        rw [hqueued, hbus]
        by_cases hc : b = c
        · subst hc
          rw [hrest, if_pos rfl, if_pos rfl, hplaced b,
            List.filter_cons_of_pos (by simpa using hb), List.length_append]
          have hsucc : 32 - (s.queue b).length =
              (32 - ((s.queue b).length + [primeEntry s i].length)) + 1 := by
            rw [List.length_singleton]
            omega
          rw [hsucc, List.take_succ_cons]
          rfl
        · rw [hrest, if_neg hc, if_neg hc, hplaced c, List.filter_cons_of_neg (by simpa using hother c hc)]
      refine ⟨fun c => ?_, ?_⟩
      · rw [hqueue c, hqueued, hentry]
        by_cases hc : b = c
        · subst hc
          rw [if_pos rfl, hplacedb, List.append_assoc]
          rfl
        · rw [if_neg hc, hplacedc c hc]
      · have hlist : (s.gen.primeList.filter (· != i)).filter (fun j =>
            !(rest 0).contains j && !(rest 1).contains j) = s.gen.primeList.filter (fun j =>
              !(placed 0).contains j && !(placed 1).contains j) := by
          rw [List.filter_filter]
          refine List.filter_congr fun j _ => ?_
          obtain rfl | rfl := bus_cases b
          · rw [hplacedb, hplacedc 1 (by decide), List.contains_cons, Bool.not_or, bne]
            ac_rfl
          · rw [hplacedb, hplacedc 0 (by decide), List.contains_cons, Bool.not_or, bne]
            ac_rfl
        rw [hframe, ← hlist, ← hu]
        rfl
    · have hfull : ∀ b, s.slotBus i = some b → 32 ≤ (s.queue b).length := fun b hb =>
        Nat.le_of_not_lt fun hlt => hin ⟨b, hb, hlt⟩
      rw [placePrime_unplaced hfull] at ht
      refine ih s t placed ht fun b => (hplaced b).trans ?_
      by_cases hb : s.slotBus i = some b
      · have hzero : 32 - (s.queue b).length = 0 := Nat.sub_eq_zero_of_le (hfull b hb)
        rw [hzero, List.take_zero, List.take_zero]
      · rw [List.filter_cons_of_neg (by simpa using hb)]

/-! ### The slots that ask for priming (R96) -/

theorem slotsFrom_eq : ∀ n first : Nat, first + n = 256 →
    State.primeSlots.slotsFrom n first = (List.finRange 256).drop first
  | 0, first, h => by
    rw [List.drop_of_length_le (by rw [List.length_finRange]; omega)]
    rfl
  | n + 1, first, h => by
    have hlt : first < 256 := by omega
    rw [State.primeSlots.slotsFrom, dif_pos hlt, slotsFrom_eq n (first + 1) (by omega),
      List.drop_eq_getElem_cons (i := first) (by rw [List.length_finRange]; exact hlt), List.getElem_finRange]
    rfl

theorem primeSlots_eq (s : State) : s.primeSlots = (List.finRange 256).filter (fun i =>
    decide (i.val < 232) && (s.slot i).defined && (s.slot i).prime) := by
  unfold State.primeSlots
  rw [slotsFrom_eq 256 0 rfl, List.drop_zero]
  refine List.filter_congr fun i _ => ?_
  have hgeneral : (!isLocal i) = decide (i.val < 232) := by
    unfold isLocal
    rw [Bool.eq_iff_iff]
    simp
  rw [hgeneral]

theorem primeSlots_nil {s : State} :
    s.primeSlots = [] ↔ ∀ i : SlotNo, i.val < 232 → (s.slot i).defined = true →
      (s.slot i).prime = false := by
  rw [primeSlots_eq, List.filter_eq_nil_iff]
  refine ⟨fun h i hi hd => ?_, fun h i _ hi => ?_⟩
  · have hnot := h i (List.mem_finRange i)
    simpa [hi, hd] using hnot
  · simp only [Bool.and_eq_true, decide_eq_true_eq] at hi
    rw [h i hi.1.1 hi.1.2] at hi
    cases hi.2

/-- R96: the generator as PRIMING begins. -/
def primingGen (s : State) : Generator :=
  { s.gen with run := .priming, line := 0, window := .shut, primeList := s.primeSlots,
               primesOutstanding := s.primeSlots.length }

theorem beginPriming_eq (s : State) :
    beginPriming s = s.primeSlots.foldl placePrime ((outputsInactive s).setGen (primingGen s)) := by
  have hslots : ∀ g : Generator, (outputsInactive (s.setGen g)).primeSlots = s.primeSlots :=
    fun g => by
      rw [primeSlots_eq, primeSlots_eq]
      rfl
  unfold beginPriming primingGen placePrimes
  dsimp only
  rw [hslots]
  generalize s.primeSlots = l
  rfl

/-- R96, R97: the slots that ask for priming are placed. -/
theorem beginPriming_spec {s t : State} {placed : BusNo → List SlotNo} (ht : t = beginPriming s)
    (hplaced : ∀ b, placed b = (s.primeSlots.filter (fun i => s.slotBus i == some b)).take
      (32 - (s.queue b).length)) :
    (∀ b, t.queue b = s.queue b ++ (placed b).map (primeEntry s)) ∧
    t = { s with
      gen := { primingGen s with primeList := s.primeSlots.filter (fun i =>
        !(placed 0).contains i && !(placed 1).contains i) },
      outputs := (outputsInactive s).outputs,
      queues := { s.queues with queue := t.queues.queue } } :=
  placeAll_spec s.primeSlots ((outputsInactive s).setGen (primingGen s)) t placed
    (ht.trans (beginPriming_eq s)) hplaced

/-! ### START with no slot to prime (R98) -/

/-- R96, R98: the tables once priming ends with no slot to prime. -/
def unprimed (d : State) : State :=
  (outputsInactive d).setGen { d.gen with
    run := .priming, line := 0, window := .shut, primeList := [], primesOutstanding := 0 }

/-- R98: the tables in TRIGGERED mode, which wait with C = S − 1. -/
def awaiting (d : State) : State :=
  waitForTrigger ((unprimed d).setGen { (unprimed d).gen with c := d.gen.startEpoch - 1 })

/-- R92, R98: the tables in FREE mode, once epoch S has begun with nothing due. -/
def begun (d : State) : State :=
  (advanceMarks (takePrograms (beginEpoch d.gen.startEpoch (unprimed d)))).draw

theorem clearPrimes_begun {d : State} (h : d.primeSlots = []) :
    clearPrimes (beginPriming d) = unprimed d := by
  rw [beginPriming_eq, h]
  rfl

/-- R106: the report of the end of priming. -/
theorem reportPrimed_eq {w : Work} {k : Client} (h : w.st.gen.issuer = some k) :
    reportPrimed w = ⟨setIssuer none w.st, w.out ++
      offersTo (fun j => (w.st.eventQueue j).sched || j == k) w.st
        (.scheduleState w.st.gen.run w.st.gen.mode .primed (some k) w.st.gen.c)⟩ := by
  unfold reportPrimed Work.update
  rw [reportSchedule_st, reportSchedule_out, h]
  simp only [cause_eq]

section Unprimed

variable {d : State} {out : List Offer} {k : Client} (h : d.primeSlots = [])
  (hfresh : ∀ x ∈ d.store, isStale d.gen.startEpoch x = false) (hk : d.gen.issuer = some k)
include h hfresh

/-- R81: the second pass drops nothing, and the prime list is empty. -/
theorem dropped_begun : (dropStale (beginPriming d).gen.startEpoch ⟨beginPriming d, out⟩).update
    clearPrimes = ⟨unprimed d, out⟩ := by
  have hgen : (beginPriming d).gen.startEpoch = d.gen.startEpoch := by
    rw [beginPriming_eq, h]
    rfl
  have hstore : (beginPriming d).store = d.store := by
    rw [beginPriming_eq, h]
    rfl
  have hnone : dropStale (beginPriming d).gen.startEpoch ⟨beginPriming d, out⟩ =
      ⟨beginPriming d, out⟩ := dropStale_of_fresh fun x hx => by
    rw [hgen]
    exact hfresh x (hstore ▸ hx)
  rw [hnone, ← clearPrimes_begun h]
  rfl

theorem closePriming_free (hmode : d.gen.mode = .free) :
    closePriming ⟨beginPriming d, out⟩ = ⟨unprimed d, out⟩ := by
  unfold closePriming
  rw [dropped_begun h hfresh]
  dsimp only
  have hm : (unprimed d).gen.mode = .free := hmode
  rw [hm]

theorem closePriming_triggered (hmode : d.gen.mode = .triggered) :
    closePriming ⟨beginPriming d, out⟩ = reportPrimed ⟨awaiting d, out⟩ := by
  unfold closePriming
  rw [dropped_begun h hfresh]
  dsimp only
  have hm : (unprimed d).gen.mode = .triggered := hmode
  rw [hm]
  rfl

include hk

/-- R98: in TRIGGERED mode the end of priming is reported in WAIT_TRIGGER. -/
theorem endPriming_triggered (hmode : d.gen.mode = .triggered) :
    endPriming ⟨beginPriming d, out⟩ = ⟨setIssuer none (awaiting d), out ++
      offersTo (fun j => (d.eventQueue j).sched || j == k) (awaiting d)
        (.scheduleState .waitTrigger .triggered .primed (some k) (d.gen.startEpoch - 1))⟩ := by
  have hreport := reportPrimed_eq (w := ⟨awaiting d, out⟩) hk
  have hm : (awaiting d).gen.mode = .triggered := hmode
  dsimp only at hreport
  rw [hm] at hreport
  unfold endPriming
  rw [closePriming_triggered h hfresh hmode, hreport]
  dsimp only
  have hm' : (setIssuer none (awaiting d)).gen.mode = .triggered := hmode
  rw [hm']
  rfl

/-- R92, R98: in FREE mode epoch S begins, and then the end of priming is reported. -/
theorem endPriming_free (hmode : d.gen.mode = .free)
    (hdue : ∀ x ∈ d.store, x.state = .waiting → x.dispatch ≠ d.gen.startEpoch) :
    endPriming ⟨beginPriming d, out⟩ = ⟨setIssuer none (begun d),
      out ++ markOffers (beginEpoch d.gen.startEpoch (unprimed d)) ++
        offersTo (fun j => ((begun d).eventQueue j).sched || j == k) (begun d)
          (.scheduleState .running .free .primed (some k) d.gen.startEpoch)⟩ := by
  have hm : (unprimed d).gen.mode = .free := hmode
  have hbegin : startEpochNow d.gen.startEpoch ⟨unprimed d, out⟩ = ⟨begun d,
      out ++ markOffers (beginEpoch d.gen.startEpoch (unprimed d))⟩ :=
    boundary_quiet (w := ⟨beginEpoch d.gen.startEpoch (unprimed d), out⟩) hdue
  have hreport := reportPrimed_eq (w := ⟨begun d,
    out ++ markOffers (beginEpoch d.gen.startEpoch (unprimed d))⟩) hk
  have hm' : (begun d).gen.mode = .free := hmode
  dsimp only at hreport
  rw [hm'] at hreport
  unfold endPriming
  rw [closePriming_free h hfresh hmode]
  dsimp only
  rw [hm]
  dsimp only
  have hstart : (unprimed d).gen.startEpoch = d.gen.startEpoch := rfl
  unfold beginFirstEpoch
  dsimp only
  rw [hstart, hbegin, hreport]
  rfl

end Unprimed

/-! ### START (R96) -/

/-- R52, R80: what the drop of the stale records tells the clients of the batches they complete. -/
theorem donesOf_dropped {s : State} (c : Epoch) {gone : List PendingRecord}
    (hbound : WithinBooks s (droppedLog gone)) : donesOf s c (droppedLog gone) =
      (List.range gone.length).flatMap (fun j =>
        (s.completedAt (gone.map (fun x => some x.batch)) j).toList.map (fun y =>
          batchDoneOf y.1 c { y.2 with dropped := y.2.dropped + y.2.unresolved })) := by
  have hlength : (droppedLog gone).length = gone.length := List.length_map ..
  unfold donesOf
  rw [hlength]
  refine List.flatMap_congr fun j _ => ?_
  rw [doneAt_whole c hbound]
  refine (List.map_congr_left fun y hy => ?_).trans (by rw [refsOf_droppedLog])
  have hcount := (completedAt_whole hbound (Option.mem_toList.mp hy)).1
  rw [outcomesOf_droppedLog, List.length_replicate] at hcount
  rw [outcomesOf_droppedLog, tallied_dropped, hcount]
  rfl

/-- R80, R96: START's first pass, with its books and its records. -/
theorem dropStale_spec {k : Client} {m : Mode} {epoch : Epoch} {gone : List PendingRecord}
    {s : State}
    (hgone : gone = s.store.filter (isStale epoch)) (hdistinct : RecordsDistinct s)
    (hbound : WithinBooks s (droppedLog gone)) :
    ∃ d : State, dropStale epoch (begin (startRequested k s m epoch)) =
        ⟨d, donesOf s s.gen.c (droppedLog gone)⟩ ∧
      d = { s with
        gen := { s.gen with mode := m, startEpoch := epoch, issuer := some k },
        batches := d.batches, store := s.store.filter (fun x => !gone.contains x) } ∧
      BooksAfter s (droppedLog gone) d := by
  have hfold : dropStale epoch (begin (startRequested k s m epoch)) =
      gone.foldl (fun w x => resolve x.batch x.position .dropped w)
        (begin (startRequested k s m epoch)) := by
    rw [hgone]
    rfl
  obtain ⟨hbooks, hout, -, hstore⟩ := dropAll_spec (s := s)
    (w := begin (startRequested k s m epoch)) rfl rfl rfl rfl gone hbound _ hfold
  rw [dropped_store hdistinct fun x hx => List.mem_of_mem_filter (hgone ▸ hx)] at hstore
  have hw := state_eq (t := (dropStale epoch (begin (startRequested k s m epoch))).st) (s :=
    { startRequested k s m epoch with
      batches := (dropStale epoch (begin (startRequested k s m epoch))).st.batches,
      store := s.store.filter (fun x => !gone.contains x) })
    (dropStale_phase ..) (dropStale_slots ..) (dropStale_claims ..) rfl hstore
    (dropStale_gen ..) (congrArg DispatchQueues.queue (dropStale_queues ..))
    (congrArg DispatchQueues.probes (dropStale_queues ..)) (dropStale_buses ..)
    (dropStale_outputs ..) (dropStale_host ..) (dropStale_events ..) (dropStale_draws ..)
    (dropStale_pending ..)
  generalize dropStale epoch (begin (startRequested k s m epoch)) = w at hbooks hout hstore hw
  refine ⟨w.st, ?_, hw, hbooks⟩
  rw [← hout]

theorem exec_start {k : Client} {tag mode : Byte} {epoch : Epoch} {m : Mode} {s d : State}
    {told : List Offer} (h : InService k (.start k tag mode epoch) s)
    (htoken : s.claims.token = some k) (hrun : s.gen.run = .stopped) (hm : modeOf mode = some m)
    (hd : dropStale epoch (begin (startRequested k s m epoch)) = ⟨d, told⟩) :
    exec (.start k tag mode epoch) s = .next (endService k tag 0x41 ⟨.accepted, []⟩
      (if d.primeSlots = [] then endPriming ⟨beginPriming d, told⟩
        else ⟨beginPriming d, told⟩ : Work).finish) := by
  have hcount : (beginPriming d).gen.primesOutstanding = 0 ↔ d.primeSlots = [] := by
    obtain ⟨l, -, hgen⟩ := beginPriming_gen d
    rw [hgen]
    exact List.length_eq_zero_iff
  have hbody : serveStart k mode epoch s = answer
      (if d.primeSlots = [] then endPriming ⟨beginPriming d, told⟩
        else ⟨beginPriming d, told⟩ : Work) .accepted := by
    have hstart : dropStale epoch (begin (s.setGen
      { s.gen with mode := m, startEpoch := epoch, issuer := some k })) = ⟨d, told⟩ := hd
    unfold serveStart
    rw [if_neg (by simp [hrun]), hm]
    dsimp only
    rw [hstart]
    simp only [Work.update, hcount]
  exact exec_answers rfl h (ruleOf_withToken rfl htoken hbody)

/-! ### Records of an event -/

theorem deliver_events_congr {u v : State} (h : u.events = v.events) (out : List Offer) :
    (deliver u out).events = (deliver v out).events := by
  induction out generalizing u v with
  | nil => exact h
  | cons o out ih =>
    refine ih ?_
    unfold deliverOne State.setEventQueue State.eventQueue
    rw [h]

theorem advanceMarks_of_unmarked {s : State} (h : ∀ j : Client, (s.eventQueue j).mark = false) :
    (advanceMarks s).events = s.events := by
  refine Vector.ext fun i hi => ?_
  have hj := (advanceMark_of_unmarked (h ⟨i, hi⟩)).2
  exact (advanceMarks_eventQueue s ⟨i, hi⟩).trans hj

theorem markOffers_of_unmarked {s : State} (h : ∀ j : Client, (s.eventQueue j).mark = false) :
    markOffers s = [] := by
  unfold markOffers
  rw [List.filter_eq_nil_iff.mpr fun j _ => by simp [(advanceMark_of_unmarked (h j)).1]]
  rfl

/-- R92, R98: the generator once epoch S has begun. -/
def begunGen (g : Generator) : Generator :=
  { g with run := .running, c := g.startEpoch, line := 0, primeList := [],
           primesOutstanding := 0, issuer := none, window := .shut }

/-- R98: the generator that waits for its first trigger. -/
def awaitingGen (g : Generator) : Generator :=
  { g with run := .waitTrigger, c := g.startEpoch - 1, line := 0, primeList := [],
           primesOutstanding := 0, issuer := none, window := .shut }

theorem epochBegun_eq (u : State) : (advanceMarks (takePrograms u)).draw = { u with
    outputs := (takePrograms u).outputs, events := (advanceMarks u).events,
    draws := u.draws + 1 } := by
  unfold takePrograms
  generalize List.foldl _ u.outputs allOutputs = outputs
  rfl

theorem begun_eq (d : State) : setIssuer none (begun d) = { d with
    gen := begunGen d.gen, outputs := (begun d).outputs, events := (begun d).events,
    draws := d.draws + 1 } := by
  unfold begun
  rw [epochBegun_eq]
  generalize (takePrograms (beginEpoch d.gen.startEpoch (unprimed d))).outputs = outputs
  generalize (advanceMarks (beginEpoch d.gen.startEpoch (unprimed d))).events = events
  rfl

theorem awaiting_eq (d : State) : setIssuer none (awaiting d) = { d with
    gen := awaitingGen d.gen, outputs := (awaiting d).outputs } := rfl

theorem begun_events {d : State} (h : ∀ j : Client, (d.eventQueue j).mark = false) :
    (begun d).events = d.events := by
  unfold begun
  rw [epochBegun_eq]
  exact advanceMarks_of_unmarked (s := beginEpoch d.gen.startEpoch (unprimed d)) h

theorem begun_output (d : State) (o : Fin 12) : (begun d).output o =
    ((unprimed d).output o).takeProgram (d.liveProgram o) d.gen.startEpoch d.gen.vspan :=
  takePrograms_output (beginEpoch d.gen.startEpoch (unprimed d)) o

theorem awaiting_output (d : State) (o : Fin 12) :
    (awaiting d).output o = (d.output o).inactive.inactive :=
  (outputsInactive_output _ o).trans (congrArg TimingOutput.inactive (outputsInactive_output d o))

/-- R167: what an event's records leave of the tables. -/
theorem of_deliver {t u : State} {out : List Offer} (h : t = deliver u out) :
    t = { u with events := t.events } := by
  rw [h]
  exact deliver_eq u out

theorem begun_spec {d t : State} {told : List Offer} {k : Client} (hnil : d.primeSlots = [])
    (hfresh : ∀ x ∈ d.store, isStale d.gen.startEpoch x = false) (hk : d.gen.issuer = some k)
    (hmode : d.gen.mode = .free)
    (hdue : ∀ x ∈ d.store, x.state = .waiting → x.dispatch ≠ d.gen.startEpoch)
    (ht : t = (endPriming ⟨beginPriming d, told⟩).finish) :
    t = { d with
        gen := begunGen d.gen, outputs := (begun d).outputs, events := t.events,
        draws := d.draws + 1 } ∧
      ((∀ j : Client, (d.eventQueue j).mark = false) →
        t.events = (deliver d (told ++ offersTo (fun j => (d.eventQueue j).sched || j == k) t
          (.scheduleState .running .free .primed (some k) d.gen.startEpoch))).events) := by
  rw [endPriming_free hnil hfresh hk hmode hdue] at ht
  have hframe := of_deliver (u := setIssuer none (begun d)) ht
  rw [begun_eq] at hframe
  refine ⟨hframe, fun hmark => ?_⟩
  have hmarks : markOffers (beginEpoch d.gen.startEpoch (unprimed d)) = [] :=
    markOffers_of_unmarked hmark
  have hqueues : ∀ j, (begun d).eventQueue j = d.eventQueue j := fun j => by
    unfold State.eventQueue
    rw [begun_events hmark]
  have hoffers : offersTo (fun j => ((begun d).eventQueue j).sched || j == k) (begun d)
      (.scheduleState .running .free .primed (some k) d.gen.startEpoch) =
      offersTo (fun j => (d.eventQueue j).sched || j == k) t
        (.scheduleState .running .free .primed (some k) d.gen.startEpoch) := by
    have hc : t.gen.c = (begun d).gen.c := by rw [hframe]; rfl
    unfold offersTo
    rw [hc]
    simp only [hqueues]
  rw [hmarks, List.append_nil, hoffers] at ht
  have hevents : (setIssuer none (begun d)).events = d.events :=
    (setIssuer_events none (begun d)).trans (begun_events hmark)
  exact (congrArg State.events ht).trans (deliver_events_congr hevents _)

theorem awaiting_spec {d t : State} {told : List Offer} {k : Client} (hnil : d.primeSlots = [])
    (hfresh : ∀ x ∈ d.store, isStale d.gen.startEpoch x = false) (hk : d.gen.issuer = some k)
    (hmode : d.gen.mode = .triggered) (ht : t = (endPriming ⟨beginPriming d, told⟩).finish) :
    t = { d with
        gen := awaitingGen d.gen, outputs := (awaiting d).outputs, events := t.events } ∧
      t.events = (deliver d (told ++ offersTo (fun j => (d.eventQueue j).sched || j == k) t
        (.scheduleState .waitTrigger .triggered .primed (some k)
          (d.gen.startEpoch - 1)))).events := by
  rw [endPriming_triggered hnil hfresh hk hmode] at ht
  have hframe := of_deliver (u := setIssuer none (awaiting d)) ht
  rw [awaiting_eq] at hframe
  refine ⟨hframe, ?_⟩
  have hoffers : offersTo (fun j => (d.eventQueue j).sched || j == k) (awaiting d)
      (.scheduleState .waitTrigger .triggered .primed (some k) (d.gen.startEpoch - 1)) =
      offersTo (fun j => (d.eventQueue j).sched || j == k) t
        (.scheduleState .waitTrigger .triggered .primed (some k) (d.gen.startEpoch - 1)) := by
    have hc : t.gen.c = (awaiting d).gen.c := by rw [hframe]; rfl
    unfold offersTo
    rw [hc]
  rw [hoffers] at ht
  have hevents : (setIssuer none (awaiting d)).events = d.events := by rw [awaiting_eq]
  exact (congrArg State.events ht).trans (deliver_events_congr hevents _)

/-- R96, R97: PRIMING, with each bus's slots placed as far as its queue has places. -/
theorem priming_spec {d t : State} {told : List Offer} {placed : BusNo → List SlotNo}
    (hplaced : ∀ b, placed b = (d.primeSlots.filter (fun i => d.slotBus i == some b)).take
      (32 - (d.queue b).length))
    (ht : t = Work.finish ⟨beginPriming d, told⟩) :
    (∀ b, t.queue b = d.queue b ++ (placed b).map (primeEntry d)) ∧
      t = { d with
        gen := { primingGen d with primeList := d.primeSlots.filter (fun i =>
          !(placed 0).contains i && !(placed 1).contains i) },
        outputs := (outputsInactive d).outputs,
        queues := { d.queues with queue := t.queues.queue }, events := t.events } ∧
      t.events = (deliver d told).events := by
  obtain ⟨hqueue, hframe⟩ := beginPriming_spec rfl hplaced
  have hdeliver := of_deliver (u := beginPriming d) ht
  have hevents : (beginPriming d).events = d.events := by rw [hframe]
  have hdelivered := (congrArg State.events ht).trans (deliver_events_congr hevents told)
  generalize beginPriming d = u at *
  have hqueues : t.queues = u.queues := by rw [hdeliver]
  refine ⟨fun b => ?_, ?_, hdelivered⟩
  · rw [State.queue, hqueues]
    exact hqueue b
  · rw [hqueues, hdeliver, hframe]

/-- R81: what the first pass leaves is not stale. -/
theorem not_stale_of_kept {epoch : Epoch} {l : List PendingRecord} {x : PendingRecord}
    (h : x ∈ l.filter (fun x => !(l.filter (isStale epoch)).contains x)) :
    isStale epoch x = false := by
  obtain ⟨hmem, hnot⟩ := List.mem_filter.mp h
  cases hs : isStale epoch x with
  | false => rfl
  | true =>
    have hin := List.contains_iff_mem.mpr (List.mem_filter.mpr ⟨hmem, hs⟩)
    rw [hin] at hnot
    cases hnot

/-- R51, R52: the books after the drop, as the rules word them. -/
theorem droppedBooks {s d : State} {gone : List PendingRecord}
    (h : BooksAfter s (droppedLog gone) d) :
    d.batches.previousId = s.batches.previousId ∧
      d.batches.sealList = s.batches.sealList.filter (fun r =>
        !(List.range gone.length).any (fun j =>
          (s.completedAt (gone.map (fun x => some x.batch)) j).any (fun y => y.1 == r))) ∧
      (∀ (r : BatchRef) (n : Fin 4) (b : Batch) (lost : Nat), s.sealedContext r = some n →
        b = s.context r.client n → lost = gone.countP (fun x => x.batch == r) →
        (lost < b.unresolved → d.context r.client n =
          { b with dropped := b.dropped + lost, unresolved := b.unresolved - lost }) ∧
        (0 < lost → lost = b.unresolved → d.context r.client n = Batch.empty)) ∧
      ∀ (j : Client) (n : Fin 4), (∀ x ∈ gone, x.batch.client = j →
        s.sealedContext x.batch ≠ some n) → d.context j n = s.context j n := by
  have hlength : ∀ r, (outcomesOf r (droppedLog gone)).length =
      gone.countP (fun x => x.batch == r) := fun r => by
    rw [outcomesOf_droppedLog, List.length_replicate]
  refine ⟨h.previousId, ?_, fun r n b lost hn hb hlost => ⟨fun hlt => ?_, fun hpos heq => ?_⟩,
    fun j n hj => h.other j n fun r hr hn => ?_⟩
  · rw [h.sealList]
    unfold completes
    rw [refsOf_droppedLog, droppedLog, List.length_map]
  · rw [hlost, hb] at hlt
    rw [h.open_ r n hn (by rw [hlength]; exact hlt), outcomesOf_droppedLog, tallied_dropped, hlost, hb]
  · rw [hlost] at hpos heq
    refine h.completed r n hn (fun hnil => ?_) (by rw [hlength, heq, hb])
    rw [← hlength, hnil] at hpos
    exact absurd hpos (Nat.lt_irrefl 0)
  · rw [outcomesOf_droppedLog, List.countP_eq_zero.mpr fun x hx hbatch => ?_]
    · rfl
    · obtain rfl := beq_iff_eq.mp hbatch
      exact hj x hx hr hn

/-- R96: START's tables and records, after the first pass over the store. -/
def started (d : State) (told : List Offer) : State :=
  Work.finish (if d.primeSlots = [] then endPriming ⟨beginPriming d, told⟩
    else ⟨beginPriming d, told⟩)

theorem started_unprimed {d : State} (told : List Offer) (h : d.primeSlots = []) :
    started d told = (endPriming ⟨beginPriming d, told⟩).finish :=
  congrArg Work.finish (if_pos h)

theorem started_priming {d : State} (told : List Offer) (h : d.primeSlots ≠ []) :
    started d told = Work.finish ⟨beginPriming d, told⟩ := congrArg Work.finish (if_neg h)

theorem started_rest (d : State) (told : List Offer) :
    (started d told).claims = d.claims ∧ (started d told).buses = d.buses ∧
      (started d told).host = d.host ∧ (started d told).phase = d.phase ∧
      (started d told).pending = d.pending := by
  obtain ⟨-, hbegin⟩ := beginPriming_spec (s := d) rfl fun _ => rfl
  by_cases h : d.primeSlots = []
  · rw [started_unprimed told h]
    generalize beginPriming d = u at hbegin
    simp only [finish_claims, finish_buses, finish_host, finish_phase, finish_pending,
      endPriming_claims, endPriming_buses, endPriming_host, endPriming_phase, endPriming_pending]
    rw [hbegin]
    exact ⟨rfl, rfl, rfl, rfl, rfl⟩
  · rw [started_priming told h]
    generalize beginPriming d = u at hbegin
    simp only [finish_claims, finish_buses, finish_host, finish_phase, finish_pending]
    rw [hbegin]
    exact ⟨rfl, rfl, rfl, rfl, rfl⟩

/-- R96: where nothing is released at once, START leaves the slots, the store and the batches as the first
pass left them. -/
theorem started_tables {d : State} (told : List Offer) {k : Client}
    (hfresh : ∀ x ∈ d.store, isStale d.gen.startEpoch x = false) (hk : d.gen.issuer = some k)
    (h : d.gen.mode = .triggered ∨
      (∀ x ∈ d.store, x.state = .waiting → x.dispatch ≠ d.gen.startEpoch) ∨ d.primeSlots ≠ []) :
    (started d told).slots = d.slots ∧ (started d told).store = d.store ∧
      (started d told).batches = d.batches := by
  by_cases hnil : d.primeSlots = []
  · have ht := started_unprimed told hnil
    cases hmode : d.gen.mode with
    | triggered =>
      obtain ⟨hframe, -⟩ := awaiting_spec hnil hfresh hk hmode ht
      rw [hframe]
      exact ⟨rfl, rfl, rfl⟩
    | free =>
      have hdue := (h.resolve_left (by simp [hmode])).resolve_right (absurd hnil)
      obtain ⟨hframe, -⟩ := begun_spec hnil hfresh hk hmode hdue ht
      rw [hframe]
      exact ⟨rfl, rfl, rfl⟩
  · obtain ⟨-, hframe, -⟩ := priming_spec (fun _ => rfl) (started_priming told hnil)
    rw [hframe]
    exact ⟨rfl, rfl, rfl⟩

/-- Settles O26: the drop of the stale records, and then one of the three ways to go on. -/
theorem startBeginsOrPrimes : Obligations.StartBeginsOrPrimes := by
  intro k tag mode epoch gone told s h htoken hrun hmode hgone hdistinct hunresolved htold
  have hstale : gone = s.store.filter (isStale epoch) := by
    rw [hgone]
    exact List.filter_congr fun x _ => (isStale_iff epoch x).symm
  have hbound : WithinBooks s (droppedLog gone) := fun r n hn => by
    rw [outcomesOf_droppedLog, List.length_replicate]
    exact hunresolved r n hn
  obtain ⟨m, hm, hmodeOf⟩ : ∃ m, m = (if mode = 0x00 then Mode.free else .triggered) ∧
      modeOf mode = some m := by
    obtain rfl | rfl := hmode
    · exact ⟨_, rfl, rfl⟩
    · exact ⟨_, rfl, rfl⟩
  obtain ⟨d, hdrop, hd, hbooks⟩ := dropStale_spec (k := k) (m := m) hstale hdistinct hbound
  rw [donesOf_dropped s.gen.c hbound, ← htold] at hdrop
  have hgen : d.gen = { s.gen with mode := m, startEpoch := epoch, issuer := some k } := by rw [hd]
  have hstart : d.gen.startEpoch = epoch := by rw [hgen]
  have hdmode : d.gen.mode = m := by rw [hgen]
  have hk : d.gen.issuer = some k := by rw [hgen]
  have hevents : d.events = s.events := by rw [hd]
  have hqueues : d.queues = s.queues := by rw [hd]
  have hdraws : d.draws = s.draws := by rw [hd]
  have hdslots : d.slots = s.slots := by rw [hd]
  have hstore : d.store = s.store.filter (fun x => !gone.contains x) := by rw [hd]
  have houtputs : ∀ o, d.output o = s.output o := fun o => output_of_outputs (by rw [hd]) o
  have hlive : ∀ o, d.liveProgram o = s.liveProgram o := fun o => by rw [hd]; rfl
  have hoffered : ∀ (t : State) (e : Event),
      offersTo (fun j => (d.eventQueue j).sched || j == k) t e =
        offersTo (fun j => (s.eventQueue j).sched || j == k) t e := fun t e => by
    unfold State.eventQueue
    rw [hevents]
  have hfresh : ∀ x ∈ d.store, isStale d.gen.startEpoch x = false := fun x hx => by
    rw [hstart]
    rw [hstore, hstale] at hx
    exact not_stale_of_kept hx
  have hslots : d.primeSlots = s.primeSlots := by
    rw [primeSlots_eq, primeSlots_eq, hd]
    rfl
  have hkept : ∀ x ∈ d.store, x ∈ s.store := fun x hx =>
    List.mem_of_mem_filter (hstore ▸ hx)
  obtain ⟨hprevious, hlist, hown, hother⟩ := droppedBooks hbooks
  obtain ⟨hclaims, hbuses, hhost, hphase, hpending⟩ := started_rest d told
  refine ⟨started d told, m, exec_start (tag := tag) h htoken hrun hmodeOf hdrop, hm,
    hclaims.trans (by rw [hd]), hbuses.trans (by rw [hd]), hhost.trans (by rw [hd]),
    hphase.trans (by rw [hd]), hpending.trans (by rw [hd]), fun hnone => ?_,
    fun hsome primes placed hprimes hplaced => ?_, fun hquiet => ?_⟩
  · have hnil : d.primeSlots = [] := hslots.trans (primeSlots_nil.mpr hnone)
    have ht := started_unprimed told hnil
    refine ⟨fun hfree hdue => ?_, fun htriggered => ?_⟩
    · have hm' : m = .free := hm.trans (if_pos hfree)
      obtain ⟨hframe, htells⟩ := begun_spec hnil hfresh hk (hdmode.trans hm')
        (fun x hx hw => hstart ▸ hdue x (hkept x hx) hw) ht
      have hout : ∀ o, (started d told).output o = (begun d).output o := fun o =>
        output_of_outputs (by rw [hframe]) o
      refine ⟨by rw [hframe]; exact hqueues, by rw [hframe, hgen]; rfl,
        by rw [hframe]; exact congrArg (· + 1) hdraws, fun o => ?_, fun hmark => ?_⟩
      · rw [hout o, begun_output, hlive, hstart]
        exact ⟨rfl, rfl⟩
      · rw [htells (fun j => by unfold State.eventQueue; rw [hevents]; exact hmark j), hoffered,
          hstart, deliver_events_congr hevents]
    · have hm' : m = .triggered := hm.trans (if_neg (by simp [htriggered]))
      obtain ⟨hframe, htells⟩ := awaiting_spec hnil hfresh hk (hdmode.trans hm') ht
      have hout : ∀ o, (started d told).output o = (awaiting d).output o := fun o =>
        output_of_outputs (by rw [hframe]) o
      refine ⟨by rw [hframe]; exact hqueues, by rw [hframe, hgen]; rfl,
        by rw [hframe]; exact hdraws, fun o => ?_, ?_⟩
      · rw [hout o, awaiting_output, houtputs]
        exact ⟨rfl, rfl, rfl⟩
      · rw [htells, hoffered, hstart, deliver_events_congr hevents]
  · have hprimes : primes = d.primeSlots := by rw [hprimes, hslots, primeSlots_eq]
    have hne : d.primeSlots ≠ [] := fun hnil => by
      obtain ⟨i, hi, hdefined, hprime⟩ := hsome
      rw [primeSlots_nil.mp (hslots.symm.trans hnil) i hi hdefined] at hprime
      cases hprime
    have hsame : ∀ b, placed b = (d.primeSlots.filter (fun i => d.slotBus i == some b)).take
        (32 - (d.queue b).length) := fun b => by
      rw [hplaced b, hprimes, State.queue, State.queue, hqueues]
      unfold State.slotBus State.slot State.device
      rw [hd]
    obtain ⟨hqueue, hframe, htells⟩ := priming_spec hsame (started_priming told hne)
    have hout : ∀ o, (started d told).output o = (outputsInactive d).output o := fun o =>
      output_of_outputs (by rw [hframe]) o
    refine ⟨htells.trans (deliver_events_congr hevents told), by rw [hframe]; exact hdraws, ?_,
      fun o => ?_, fun b => ?_⟩
    · rw [hframe, hprimes]
      unfold primingGen
      rw [hgen]
    · rw [hout o, outputsInactive_output, houtputs]
      exact ⟨rfl, rfl, rfl⟩
    · rw [hqueue b, State.queue, State.queue, hqueues]
      unfold primeEntry State.slot
      rw [hdslots]
  · obtain ⟨htslots, htstore, htbatches⟩ := started_tables told hfresh hk (by
      refine hquiet.imp (fun htriggered => ?_) (Or.imp (fun hdue x hx hw => ?_) fun hsome hnil => ?_)
      · exact hdmode.trans (hm.trans (if_neg (by simp [htriggered])))
      · exact hstart ▸ hdue x (hkept x hx) hw
      · obtain ⟨i, hi, hdefined, hprime⟩ := hsome
        rw [primeSlots_nil.mp (hslots.symm.trans hnil) i hi hdefined] at hprime
        cases hprime)
    have hcontext : ∀ j n, (started d told).context j n = d.context j n := fun j n => by
      unfold State.context
      rw [htbatches]
    refine ⟨htslots.trans hdslots, htstore.trans hstore, by rw [htbatches]; exact hprevious,
      by rw [htbatches]; exact hlist, fun r n b lost hn hb hlost => ?_, fun j n hj => ?_⟩
    · rw [hcontext]
      exact hown r n b lost hn hb hlost
    · rw [hcontext]
      exact hother j n hj

end Sys2Proof.Starts

end


section
/-! PROOFS. What the end of one carried entry does (R119, R120, R122). -/

set_option Elab.async false

namespace Sys2Proof.Results

open Sys2Proof Sys2Proof.Machine Sys2Proof.Refills Sys2Proof.BookSequences Sys2Proof.DispatchQueues

/-! ### The slot (R7) -/

/-- R7: a slot once an entry for it has ended. -/
def completed (e : Entry) (done : Bool) (r : Slot) : Slot :=
  { r with
    live := e.value, liveState := if done then .valid else .uncertain,
    applied := match done, e.kind with
      | true, .write => e.stamp.map (fun c => c + BitVec.ofNat 16 r.lead)
      | true, .now => e.stamp
      | _, _ => none }

theorem completeSlot_slot (e : Entry) (done : Bool) (s : State) (i : SlotNo) :
    (completeSlot e done s).slot i =
      if e.slot = some i then completed e done (s.slot i) else s.slot i := by
  unfold completeSlot
  cases hs : e.slot with
  | none => simp
  | some j =>
    dsimp only
    have hset : ∀ r : Slot, r = completed e done (s.slot j) → (s.setSlot j r).slot i =
        if some j = some i then completed e done (s.slot i) else s.slot i := by
      rintro r rfl
      rw [State.setSlot_slot]
      by_cases h : j = i
      · subst h
        rw [if_pos rfl, if_pos rfl]
      · rw [if_neg h, if_neg (fun h' => h (Option.some.inj h'))]
    cases done
    · rw [if_neg Bool.false_ne_true]
      exact hset _ rfl
    · rw [if_pos rfl]
      refine hset _ ?_
      unfold completed
      cases e.kind <;> rfl

theorem completeSlot_frame (e : Entry) (done : Bool) (s : State) :
    completeSlot e done s = { s with slots := (completeSlot e done s).slots } := by
  unfold completeSlot
  split
  · rfl
  · dsimp only
    split <;> rfl

/-! ### The outcome and the report of one entry (R51, R118) -/

/-- R51, R118: the record that an entry resolves, with its outcome. -/
def outcomeOf (done : Bool) (e : Entry) : Option (BatchRef × RecordOutcome) :=
  e.batchOf.map (fun r => (r, if done then e.doneOutcome else .failed))

/-- R17, R52, R122: what the end of an entry offers, where its outcome is the `j`-th of a log. -/
def tellEntry (s : State) (done : Bool) (bytes : List Byte) (log : Log) (j : Nat) (e : Entry) :
    List Offer :=
  match e.kind, e.origin with
  | .now, .client k tag =>
    match e.slot with
    | some i => if e.discarded then [] else
        [{ client := k, stamp := s.gen.c, event := .writeDone tag i (if done then .done else .failed) }]
    | none => []
  | .probe, .client k tag => if e.discarded then [] else
      [{ client := k, stamp := s.gen.c,
         event := if done
           then .probeResult tag e.device .done (probeValue e.order (bytes.take e.width))
           else .probeResult tag e.device .failed 0 }]
  | .write, .record _ _ => doneAt s s.gen.c log j
  | _, _ => []

/-- R119: what handing on the result of one entry does to the tables. -/
structure Handed (e : Entry) (done : Bool) (w v : State) : Prop where
  slot : ∀ i : SlotNo, v.slot i =
    if e.kind ≠ .probe ∧ e.slot = some i then completed e done (w.slot i) else w.slot i
  probes : ∀ k : Client, v.probes k = w.probes k - if e.kind == .probe && e.isOf k then 1 else 0
  store : v.store = w.store.filter (fun x =>
    !(e.kind == .write && e.origin == .record x.batch x.position))
  gen : v.gen = { w.gen with
    primesOutstanding := w.gen.primesOutstanding -
      if w.gen.run = .priming ∧ e.kind = .prime ∧ e.discarded = false then 1 else 0 }
  rest : v = { w with
    slots := v.slots, batches := v.batches, store := v.store, gen := v.gen,
    queues := { w.queues with probes := v.queues.probes } }

/-- R119: one entry is handed on, counted in its batch's books and told to its client. -/
structure HandedOn (e : Entry) (done : Bool) (bytes : List Byte) (w v : Work) : Prop where
  tables : Handed e done w.st v.st
  books : ∀ (s : State) (log : Log), BooksAfter s log w.st → w.st.gen.c = s.gen.c →
    WithinBooks s (log ++ [outcomeOf done e]) →
    BooksAfter s (log ++ [outcomeOf done e]) v.st ∧
      v.out = w.out ++ tellEntry s done bytes (log ++ [outcomeOf done e]) log.length e

/-- A store from which no entry's record leaves. -/
theorem store_kept {e : Entry} (h : ∀ r position, e.kind = .write → e.origin ≠ .record r position)
    (l : List PendingRecord) :
    l.filter (fun x => !(e.kind == .write && e.origin == .record x.batch x.position)) = l := by
  refine List.filter_eq_self.mpr fun x _ => ?_
  by_cases hk : e.kind = .write
  · simp [h x.batch x.position hk]
  · simp [hk]

/-- R119, R120: an entry that changes its slot and, as a prime, the count of primes outstanding. -/
theorem handed_counted {e : Entry} (done : Bool) (w : State) {g : Generator}
    (hkind : e.kind ≠ .probe)
    (hrecord : ∀ r position, e.kind = .write → e.origin ≠ .record r position)
    (hg : g = { w.gen with
      primesOutstanding := w.gen.primesOutstanding -
        if w.gen.run = .priming ∧ e.kind = .prime ∧ e.discarded = false then 1 else 0 }) :
    Handed e done w ((completeSlot e done w).setGen g) where
  slot i := by
    refine (completeSlot_slot e done w i).trans ?_
    simp only [ne_eq, hkind, not_false_eq_true, true_and]
  probes k := by
    have hsame : ((completeSlot e done w).setGen g).probes k = w.probes k := by
      rw [State.probes, State.setGen_queues, completeSlot_queues]
      rfl
    simp [hsame, hkind]
  store := by
    rw [store_kept hrecord, State.setGen_store, completeSlot_store]
  gen := hg
  rest := by
    rw [completeSlot_frame]
    rfl

/-- R119: an entry that changes no more than its slot. -/
theorem handed_completed {e : Entry} (done : Bool) (w : State) (hkind : e.kind ≠ .probe)
    (hrecord : ∀ r position, e.kind = .write → e.origin ≠ .record r position)
    (hprime : ¬ (w.gen.run = .priming ∧ e.kind = .prime ∧ e.discarded = false)) :
    Handed e done w (completeSlot e done w) := by
  have hsame : completeSlot e done w = (completeSlot e done w).setGen w.gen := by
    rw [← completeSlot_gen e done w]
    rfl
  rw [hsame]
  exact handed_counted done w hkind hrecord (by rw [if_neg hprime]; rfl)

/-- An entry without a record leaves the books. -/
theorem books_of_none {e : Entry} {done : Bool} {bytes : List Byte} {w v : Work}
    (hnone : outcomeOf done e = none) (hbatches : v.st.batches = w.st.batches)
    (hout : ∀ s : State, w.st.gen.c = s.gen.c → ∀ log : Log,
      v.out = w.out ++ tellEntry s done bytes (log ++ [none]) log.length e)
    (s : State) (log : Log) (h : BooksAfter s log w.st) (hc : w.st.gen.c = s.gen.c) :
    BooksAfter s (log ++ [outcomeOf done e]) v.st ∧
      v.out = w.out ++ tellEntry s done bytes (log ++ [outcomeOf done e]) log.length e := by
  rw [hnone]
  exact ⟨h.skip.of_batches hbatches, hout s hc log⟩

/-- R119: a WRITE entry, with its record if it carries one. -/
theorem handedOn_write {e : Entry} (done : Bool) (bytes : List Byte) (w : Work)
    (hkind : e.kind = .write) : HandedOn e done bytes w (handOn e done bytes w) := by
  have hprobe : e.kind ≠ .probe := by simp [hkind]
  have hquiet : ¬ (w.st.gen.run = .priming ∧ e.kind = .prime ∧ e.discarded = false) := by
    simp [hkind]
  cases horigin : e.origin with
  | record r position =>
    rw [handOn_write_record hkind horigin]
    have hlog : outcomeOf done e = some (r, if done then e.doneOutcome else .failed) := by
      simp [outcomeOf, Entry.batchOf, hkind, horigin]
    refine ⟨?_, fun s log h hc hbound => ?_⟩
    · generalize (if done then e.doneOutcome else RecordOutcome.failed) = o
      have hstore := resolve_store r position o (w.update (completeSlot e done))
      refine ⟨fun i => ?_, fun k => ?_, ?_, ?_, ?_⟩
      · rw [State.slot, resolve_slots]
        refine (completeSlot_slot e done w.st i).trans ?_
        simp only [ne_eq, hprobe, not_false_eq_true, true_and]
      · rw [State.probes, resolve_queues, Work.update_st, completeSlot_queues]
        simp [hkind, State.probes]
      · rw [hstore, Work.update_st, completeSlot_store]
        refine List.filter_congr fun x _ => congrArg _ ?_
        rw [hkind, horigin, Bool.eq_iff_iff]
        simp only [Bool.and_eq_true, beq_iff_eq, Origin.record.injEq, true_and]
        exact and_congr eq_comm eq_comm
      · rw [resolve_gen, Work.update_st, completeSlot_gen, if_neg hquiet]
        rfl
      · refine state_eq ?_ rfl ?_ rfl rfl rfl ?_ rfl ?_ ?_ ?_ ?_ ?_ ?_
        all_goals simp
    · rw [hlog] at hbound ⊢
      obtain ⟨hbooks, hout⟩ := booksAfter_resolve (w := w.update (completeSlot e done)) position
        (h.of_batches (completeSlot_batches e done w.st)) hbound
      refine ⟨hbooks, hout.trans ?_⟩
      have hclock : (w.update (completeSlot e done)).st.gen.c = s.gen.c := by
        rw [Work.update_st, completeSlot_gen]
        exact hc
      unfold tellEntry
      rw [hkind, horigin, hclock]
      rfl
  | _ =>
    have hnone : outcomeOf done e = none := by
      simp [outcomeOf, Entry.batchOf, hkind, horigin]
    have hhand : handOn e done bytes w = w.update (completeSlot e done) := by
      simp [handOn, endWrite, hkind, horigin]
    rw [hhand]
    refine ⟨handed_completed done w.st hprobe (fun r position _ h => ?_) hquiet,
      fun s log h hc _ => books_of_none hnone (completeSlot_batches ..) (fun s hc log => ?_) s log h hc⟩
    · rw [horigin] at h
      cases h
    · unfold tellEntry
      rw [hkind, horigin]
      exact (List.append_nil _).symm

/-- R17, R119: a NOW entry. -/
theorem handedOn_now {e : Entry} (done : Bool) (bytes : List Byte) (w : Work)
    (hkind : e.kind = .now) : HandedOn e done bytes w (handOn e done bytes w) := by
  have hprobe : e.kind ≠ .probe := by simp [hkind]
  have hquiet : ¬ (w.st.gen.run = .priming ∧ e.kind = .prime ∧ e.discarded = false) := by
    simp [hkind]
  have hnone : outcomeOf done e = none := by simp [outcomeOf, Entry.batchOf, hkind]
  have hst : (handOn e done bytes w).st = completeSlot e done w.st := by
    simp only [handOn, hkind, endNow]
    split
    · split <;> rfl
    · rfl
  refine ⟨?_, fun s log h hc _ => books_of_none hnone ?_ (fun s hc log => ?_) s log h hc⟩
  · rw [hst]
    exact handed_completed done w.st hprobe (fun r position h => by simp [hkind] at h) hquiet
  · rw [hst, completeSlot_batches]
  · unfold tellEntry
    rw [hkind]
    simp only [handOn, hkind, endNow]
    cases horigin : e.origin <;> cases hslot : e.slot <;> dsimp only
    case client.some =>
      cases e.discarded
      · simp [offerTo, Work.update, hc]
      · simp [Work.update]
    all_goals exact (List.append_nil _).symm

/-- R120: a PRIME entry that neither ends priming nor makes it fail. -/
theorem handedOn_prime {e : Entry} (done : Bool) (bytes : List Byte) (w : Work)
    (hkind : e.kind = .prime) (hquiet : w.st.gen.run = .priming → e.discarded = false →
      done = true ∧ 1 < w.st.gen.primesOutstanding) :
    HandedOn e done bytes w (handOn e done bytes w) := by
  have hprobe : e.kind ≠ .probe := by simp [hkind]
  have hrecord : ∀ r position, e.kind = .write → e.origin ≠ .record r position := fun r position h =>
    by simp [hkind] at h
  have hnone : outcomeOf done e = none := by simp [outcomeOf, Entry.batchOf, hkind]
  have hhand : handOn e done bytes w = endPrime e done w := by simp only [handOn, hkind]
  by_cases hin : w.st.gen.run = .priming ∧ e.discarded = false
  · obtain ⟨rfl, hmore⟩ := hquiet hin.1 hin.2
    have hgen : (w.update (completeSlot e true)).st.gen = w.st.gen := completeSlot_gen ..
    have hend : endPrime e true w = w.update (fun s => (completeSlot e true s).setGen
        { w.st.gen with primesOutstanding := w.st.gen.primesOutstanding - 1 }) := by
      unfold endPrime
      dsimp only
      rw [hgen, if_pos hin, if_pos rfl, if_neg (by omega)]
      obtain ⟨v, hv, ⟨hzero, -⟩ | ⟨-, he⟩⟩ := countPrime_cases (w.update (completeSlot e true))
      · have hcount : v.st.gen.primesOutstanding = w.st.gen.primesOutstanding - 1 := by
          rw [hv, ← hgen]
          rfl
        omega
      · rw [he, hv]
        simp only [Work.update, completeSlot_gen]
    rw [hhand, hend]
    refine ⟨handed_counted true w.st hprobe hrecord ?_, fun s log h hc _ =>
      books_of_none hnone ?_ (fun s hc log => ?_) s log h hc⟩
    · rw [if_pos ⟨hin.1, hkind, hin.2⟩]
    · exact (State.setGen_batches ..).trans (completeSlot_batches ..)
    · unfold tellEntry
      rw [hkind]
      exact (List.append_nil _).symm
  · have hend : endPrime e done w = w.update (completeSlot e done) := by
      unfold endPrime
      dsimp only
      rw [Work.update_st, completeSlot_gen, if_neg hin]
    rw [hhand, hend]
    refine ⟨handed_completed done w.st hprobe hrecord fun h => hin ⟨h.1, h.2.2⟩,
      fun s log h hc _ => books_of_none hnone (completeSlot_batches ..) (fun s hc log => ?_) s log h hc⟩
    unfold tellEntry
    rw [hkind]
    exact (List.append_nil _).symm

/-- R122: a PROBE entry. -/
theorem handedOn_probe {e : Entry} (done : Bool) (bytes : List Byte) (w : Work)
    (hkind : e.kind = .probe) : HandedOn e done bytes w (handOn e done bytes w) := by
  have hnone : outcomeOf done e = none := by simp [outcomeOf, Entry.batchOf, hkind]
  have hst : (handOn e done bytes w).st = match e.origin with
      | .client k _ => w.st.setProbes k (w.st.probes k - 1)
      | _ => w.st := by
    simp only [handOn, hkind, endProbe]
    cases e.origin <;> dsimp only
    case client =>
      split
      · rfl
      · split <;> rfl
  have hprobes : ∀ k, (handOn e done bytes w).st.probes k =
      w.st.probes k - if e.kind == .probe && e.isOf k then 1 else 0 := fun k => by
    rw [hst, hkind]
    unfold Entry.isOf
    cases e.origin with
    | client j tag =>
      dsimp only
      rw [State.setProbes_probes]
      by_cases h : j = k
      · subst h
        simp
      · simp [h]
    | _ => simp
  have hframe : (handOn e done bytes w).st = { w.st with
      queues := { w.st.queues with probes := (handOn e done bytes w).st.queues.probes } } := by
    rw [hst]
    split <;> rfl
  refine ⟨⟨fun i => ?_, hprobes, ?_, ?_, ?_⟩,
    fun s log h hc _ => books_of_none hnone ?_ (fun s hc log => ?_) s log h hc⟩
  · rw [hframe, if_neg fun h => h.1 hkind]
    rfl
  · rw [store_kept fun r position h => by simp [hkind] at h, hframe]
  · rw [if_neg (by simp [hkind]), hframe]
    rfl
  · rw [hframe]
  · rw [hframe]
  · unfold tellEntry
    rw [hkind]
    simp only [handOn, hkind, endProbe]
    cases horigin : e.origin <;> dsimp only
    case client =>
      cases e.discarded
      · cases done <;> simp [offerTo, Work.update, hc]
      · simp [Work.update]
    all_goals exact (List.append_nil _).symm

/-- R119, R120: whether an entry's end leaves priming in progress. -/
abbrev LeavesPriming (done : Bool) (g : Generator) (e : Entry) : Prop :=
  g.run = .priming → e.kind = .prime → e.discarded = false → done = true ∧ 1 < g.primesOutstanding

/-- R119, R120, R122: one entry is handed on, by its kind. -/
theorem handedOn {e : Entry} {done : Bool} (bytes : List Byte) {w : Work}
    (h : LeavesPriming done w.st.gen e) : HandedOn e done bytes w (handOn e done bytes w) := by
  cases hkind : e.kind with
  | write => exact handedOn_write done bytes w hkind
  | now => exact handedOn_now done bytes w hkind
  | prime => exact handedOn_prime done bytes w hkind fun hrun => h hrun hkind
  | probe => exact handedOn_probe done bytes w hkind

end Sys2Proof.Results

end


section
/-! PROOFS. The end of a transfer, entry by entry: what has been handed on, and what has entered the freed
places (R119, R73). -/

set_option Elab.async false

namespace Sys2Proof.TransferEnds

open Sys2Proof Sys2Proof.Machine Sys2Proof.QueueLaw Sys2Proof.Refills Sys2Proof.Starts
open Sys2Proof.BookSequences Sys2Proof.Results Sys2Proof.Detaching

/-! ### What a transfer's entries resolve and tell -/

/-- R51: the outcomes of the entries of a transfer, in order. -/
def transferLog (done : Bool) (es : List Entry) : Log := es.map (outcomeOf done)

theorem transferLog_append (done : Bool) (p q : List Entry) :
    transferLog done (p ++ q) = transferLog done p ++ transferLog done q := List.map_append

theorem length_transferLog (done : Bool) (es : List Entry) :
    (transferLog done es).length = es.length := List.length_map ..

/-- What the end of the `j`-th entry of a transfer offers. -/
def tellAt (s : State) (done : Bool) (bytes : List Byte) (es : List Entry) (j : Nat) : List Offer :=
  match es[j]? with
  | some e => tellEntry s done bytes (transferLog done es) j e
  | none => []

/-- What the end of a transfer offers, in queue order. -/
def tells (s : State) (done : Bool) (bytes : List Byte) (es : List Entry) : List Offer :=
  (List.range es.length).flatMap (tellAt s done bytes es)

theorem doneAt_append {s : State} {c : Epoch} {log : Log} (x : Option (BatchRef × RecordOutcome))
    {j : Nat} (hj : j < log.length) : doneAt s c (log ++ [x]) j = doneAt s c log j := by
  unfold doneAt
  rw [refsOf_append, completedAt_append (by rw [length_refsOf]; exact hj),
    List.take_append_of_le_length hj]

theorem tells_append (s : State) (done : Bool) (bytes : List Byte) (p : List Entry) (e : Entry) :
    tells s done bytes (p ++ [e]) = tells s done bytes p ++
      tellEntry s done bytes (transferLog done p ++ [outcomeOf done e]) p.length e := by
  have hearlier : ∀ j ∈ List.range p.length,
      tellAt s done bytes (p ++ [e]) j = tellAt s done bytes p j := fun j hj => by
    have hlt := List.mem_range.mp hj
    have hlog : j < (transferLog done p).length := by rwa [length_transferLog]
    unfold tellAt
    rw [List.getElem?_append_left hlt, transferLog_append]
    cases p[j]? with
    | none => rfl
    | some x =>
      dsimp only
      have hdone := doneAt_append (s := s) (c := s.gen.c) (outcomeOf done e) hlog
      have hsingle : transferLog done [e] = [outcomeOf done e] := rfl
      unfold tellEntry
      rw [hsingle, hdone]
  have hlast : tellAt s done bytes (p ++ [e]) p.length =
      tellEntry s done bytes (transferLog done p ++ [outcomeOf done e]) p.length e := by
    unfold tellAt
    rw [List.getElem?_append_right (Nat.le_refl _), Nat.sub_self, transferLog_append]
    rfl
  unfold tells
  rw [List.length_append, List.length_singleton, List.range_succ, List.flatMap_append,
    List.flatMap_singleton, List.flatMap_congr hearlier, hlast]

/-! ### The store (R68, R73) -/

/-- R51: the store without the records that the WRITE entries of `p` carry. -/
def withoutOwn (p : List Entry) (l : List PendingRecord) : List PendingRecord :=
  l.filter (fun x => !p.any (fun e => e.kind == .write && e.origin == .record x.batch x.position))

theorem withoutOwn_nil (l : List PendingRecord) : withoutOwn [] l = l := by
  simp [withoutOwn]

theorem recordsDistinct_withoutOwn {s t : State} {p : List Entry} (h : RecordsDistinct s)
    (ht : t.store = withoutOwn p s.store) : RecordsDistinct t := by
  unfold RecordsDistinct
  rw [ht]
  exact List.Pairwise.sublist List.filter_sublist h

/-- R51: one more entry's record leaves, whichever are released. -/
theorem withReleased_withoutOwn (taken l : List PendingRecord) (p : List Entry) (e : Entry) :
    (withReleased taken (withoutOwn p l)).filter (fun x =>
        !(e.kind == .write && e.origin == .record x.batch x.position)) =
      withReleased taken (withoutOwn (p ++ [e]) l) := by
  unfold withReleased withoutOwn
  rw [List.filter_map, List.filter_filter]
  refine congrArg _ (List.filter_congr fun x _ => ?_)
  have hsame : ∀ y : PendingRecord, y = (if x ∈ taken then { x with state := .released } else x) →
      y.batch = x.batch ∧ y.position = x.position := by
    rintro y rfl
    split <;> exact ⟨rfl, rfl⟩
  obtain ⟨hbatch, hposition⟩ := hsame _ rfl
  rw [Function.comp_apply, hbatch, hposition, List.any_append]
  simp only [List.any_cons, List.any_nil, Bool.or_false, Bool.not_or, Bool.and_comm]

/-- R68: the released records are no longer among those that `p` selects. -/
theorem filter_withReleased {p : PendingRecord → Bool}
    (hp : ∀ x : PendingRecord, p { x with state := .released } = false) (taken l : List PendingRecord) :
    (withReleased taken l).filter p = (l.filter p).filter (fun x => decide (x ∉ taken)) := by
  induction l with
  | nil => rfl
  | cons x l ih =>
    have hcons : withReleased taken (x :: l) =
        (if x ∈ taken then { x with state := .released } else x) :: withReleased taken l := rfl
    rw [hcons]
    by_cases htaken : x ∈ taken
    · rw [if_pos htaken, List.filter_cons_of_neg (by rw [hp]; exact Bool.false_ne_true), ih]
      by_cases hx : p x = true
      · rw [List.filter_cons_of_pos hx, List.filter_cons_of_neg (by simpa using htaken)]
      · rw [List.filter_cons_of_neg hx]
    · rw [if_neg htaken]
      by_cases hx : p x = true
      · rw [List.filter_cons_of_pos hx, List.filter_cons_of_pos hx,
          List.filter_cons_of_pos (by simpa using htaken), ih]
      · rw [List.filter_cons_of_neg hx, List.filter_cons_of_neg hx, ih]

theorem filter_not_mem_take {α : Type} [DecidableEq α] {l : List α} (h : l.Nodup) (n : Nat) :
    l.filter (fun x => decide (x ∉ l.take n)) = l.drop n := by
  induction l generalizing n with
  | nil => simp
  | cons x l ih =>
    obtain ⟨hx, hl⟩ := List.nodup_cons.mp h
    cases n with
    | zero => simp
    | succ n =>
      rw [List.take_succ_cons, List.drop_succ_cons, List.filter_cons_of_neg (by simp), ← ih hl n]
      refine List.filter_congr fun y hy => ?_
      have hne : y ≠ x := fun heq => hx (heq ▸ hy)
      simp [hne]

theorem store_nodup {s : State} (h : RecordsDistinct s) : s.store.Nodup :=
  h.imp fun hxy heq => hxy.1.elim (absurd (congrArg _ heq)) (absurd (congrArg _ heq))

/-! ### The slots (R7) -/

/-- R7: slot `i` once the entries of `p` have ended. -/
def slotAfter (done : Bool) (p : List Entry) (i : SlotNo) (r : Slot) : Slot :=
  p.foldl (fun r e => if e.kind ≠ .probe ∧ e.slot = some i then completed e done r else r) r

theorem slotAfter_append (done : Bool) (p : List Entry) (e : Entry) (i : SlotNo) (r : Slot) :
    slotAfter done (p ++ [e]) i r =
      if e.kind ≠ .probe ∧ e.slot = some i then completed e done (slotAfter done p i r)
      else slotAfter done p i r := by
  rw [slotAfter, List.foldl_append]
  rfl

/-- R7: the end of entries changes the value of a slot and nothing of what it names. -/
theorem slotAfter_names (done : Bool) (p : List Entry) (i : SlotNo) (r : Slot) :
    (slotAfter done p i r).device = r.device ∧ (slotAfter done p i r).register = r.register ∧
      (slotAfter done p i r).width = r.width ∧ (slotAfter done p i r).order = r.order := by
  unfold slotAfter
  induction p generalizing r with
  | nil => exact ⟨rfl, rfl, rfl, rfl⟩
  | cons e p ih =>
    rw [List.foldl_cons]
    split
    · exact ih _
    · exact ih r

theorem slotAfter_other {done : Bool} {i : SlotNo} {p : List Entry} (r : Slot)
    (h : ∀ e ∈ p, e.kind ≠ .probe → e.slot ≠ some i) : slotAfter done p i r = r := by
  unfold slotAfter
  induction p with
  | nil => rfl
  | cons e p ih =>
    rw [List.foldl_cons, if_neg fun hand => h e (List.mem_cons_self ..) hand.1 hand.2]
    exact ih fun x hx => h x (List.mem_cons_of_mem _ hx)

theorem slotAfter_own {done : Bool} {i : SlotNo} {e : Entry} {p : List Entry} (r : Slot)
    (hnodup : (p.filterMap (·.slot)).Nodup) (he : e ∈ p) (hkind : e.kind ≠ .probe)
    (hslot : e.slot = some i) : slotAfter done p i r = completed e done r := by
  induction p with
  | nil => cases he
  | cons x p ih =>
    have hcons : slotAfter done (x :: p) i r = slotAfter done p i
        (if x.kind ≠ .probe ∧ x.slot = some i then completed x done r else r) := rfl
    rw [hcons]
    obtain rfl | hmem := List.mem_cons.mp he
    · rw [if_pos ⟨hkind, hslot⟩]
      rw [List.filterMap_cons_some hslot] at hnodup
      exact slotAfter_other _ fun y hy _ hys =>
        (List.nodup_cons.mp hnodup).1 (List.mem_filterMap.mpr ⟨y, hy, hys⟩)
    · have hx : x.slot ≠ some i := fun hx => by
        rw [List.filterMap_cons_some hx] at hnodup
        exact (List.nodup_cons.mp hnodup).1 (List.mem_filterMap.mpr ⟨e, hmem, hslot⟩)
      rw [if_neg fun hand => hx hand.2]
      refine ih ?_ hmem
      rw [List.filterMap_cons] at hnodup
      split at hnodup
      · exact hnodup
      · exact (List.nodup_cons.mp hnodup).2

/-! ### A transfer in part handed on -/

/-- R119: the entries `p` of bus `b`'s transfer have ended, with `left` still on the queue before what
entered by refill, `n` records at most. -/
structure Midway (b : BusNo) (done : Bool) (bytes : List Byte) (s : State) (p left : List Entry)
    (n : Nat) (w : Work) : Prop where
  queue : w.st.queue b = left ++ ((s.deferredSet b).take n).map (refillEntryFor s)
  otherQueue : ∀ c : BusNo, c ≠ b → w.st.queue c = s.queue c
  store : w.st.store = withReleased ((s.deferredSet b).take n) (withoutOwn p s.store)
  slot : ∀ i : SlotNo, w.st.slot i = slotAfter done p i (s.slot i)
  probes : ∀ k : Client, w.st.probes k = s.probes k - p.countP (fun e => e.kind == .probe && e.isOf k)
  books : BooksAfter s (transferLog done p) w.st
  gen : w.st.gen = { s.gen with
    primesOutstanding := s.gen.primesOutstanding -
      if s.gen.run = .priming then p.countP (fun e => e.kind == .prime && !e.discarded) else 0 }
  out : w.out = tells s done bytes p
  frame : w.st = { s with
    slots := w.st.slots, batches := w.st.batches, store := w.st.store, gen := w.st.gen,
    queues := w.st.queues }

theorem midway_none {b : BusNo} (done : Bool) (bytes : List Byte) {s : State} {es : List Entry}
    (h : s.queue b = es) : Midway b done bytes s [] es 0 ⟨s, []⟩ where
  queue := by rw [List.take_zero, List.map_nil, List.append_nil]; exact h
  otherQueue _ _ := rfl
  store := by rw [List.take_zero, withReleased_nil, withoutOwn_nil]
  slot _ := rfl
  probes _ := rfl
  books := booksAfter_nil s
  gen := by rw [List.countP_nil, ite_self]; rfl
  out := rfl
  frame := rfl

/-- R51: the outcomes of a transfer's entries for one batch. -/
theorem outcomesOf_transferLog (r : BatchRef) (done : Bool) (es : List Entry) :
    outcomesOf r (transferLog done es) = (es.filter (fun e => e.batchOf == some r)).map (fun e =>
      if done then e.doneOutcome else .failed) := by
  induction es with
  | nil => rfl
  | cons e es ih =>
    have hcons : outcomesOf r (transferLog done (e :: es)) =
        outcomesOf r [outcomeOf done e] ++ outcomesOf r (transferLog done es) :=
      outcomesOf_append r [outcomeOf done e] (transferLog done es)
    rw [hcons, ih]
    unfold outcomeOf
    cases hb : e.batchOf with
    | none =>
      rw [List.filter_cons_of_neg (by simp [hb])]
      rfl
    | some q =>
      by_cases hq : q = r
      · subst hq
        rw [List.filter_cons_of_pos (by simp [hb]), Option.map_some, outcomesOf_self]
        rfl
      · rw [List.filter_cons_of_neg (by simp [hb, hq]), Option.map_some, outcomesOf_other _ hq]
        rfl

theorem withinBooks_transferLog {b : BusNo} {done : Bool} {es rest p q : List Entry} {s : State}
    (h : TransferCarries b done es rest s) (hes : es = p ++ q) : WithinBooks s (transferLog done p) :=
  fun r n hn => by
    rw [outcomesOf_transferLog, List.length_map, ← List.countP_eq_length_filter]
    refine Nat.le_trans ?_ (h.books r n hn)
    rw [hes, List.countP_append]
    exact Nat.le_add_right _ _

/-- R119: the next entry leaves and is handed on. -/
theorem midway_handOn {b : BusNo} {done : Bool} {bytes : List Byte} {es rest : List Entry}
    {s : State} (h : TransferCarries b done es rest s) {p q left : List Entry} {e : Entry} {n : Nat}
    {w : Work} (hes : es = p ++ e :: q) (hw : Midway b done bytes s p (e :: left) n w) :
    Midway b done bytes s (p ++ [e]) left n
      (handOn e done bytes (w.update (·.setQueue b
        (left ++ ((s.deferredSet b).take n).map (refillEntryFor s))))) := by
  generalize hx : w.update (·.setQueue b
    (left ++ ((s.deferredSet b).take n).map (refillEntryFor s))) = x
  have hgen : x.st.gen = w.st.gen := by rw [← hx]; rfl
  have hout : x.out = w.out := by rw [← hx]; rfl
  have hleaves : LeavesPriming done x.st.gen e := fun hrun hkind hkept => by
    rw [hgen, hw.gen] at hrun ⊢
    obtain hquiet | ⟨hdone, hlt⟩ := (h.priming hrun).2
    · have := hquiet e (by rw [hes]; simp) hkind
      rw [hkept] at this
      cases this
    · refine ⟨hdone, ?_⟩
      rw [hes, List.countP_append, List.countP_cons_of_pos (by simp [hkind, hkept])] at hlt
      dsimp only at hrun ⊢
      rw [if_pos hrun]
      omega
  obtain ⟨htables, hbooks⟩ := handedOn bytes hleaves
  have hbound : WithinBooks s (transferLog done p ++ [outcomeOf done e]) := by
    have := withinBooks_transferLog (p := p ++ [e]) (q := q) h (by rw [hes]; simp)
    rwa [transferLog_append] at this
  obtain ⟨hafter, hoffered⟩ := hbooks s (transferLog done p)
    (hw.books.of_batches (by rw [← hx]; rfl)) (by rw [hgen, hw.gen]) hbound
  generalize handOn e done bytes x = v at htables hafter hoffered ⊢
  have hqueue : ∀ c, v.st.queue c = x.st.queue c := fun c => by
    rw [State.queue, htables.rest]
    rfl
  refine {
    queue := ?_, otherQueue := fun c hc => ?_, store := ?_, slot := fun i => ?_,
    probes := fun k => ?_, books := ?_, gen := ?_, out := ?_, frame := ?_ }
  · rw [hqueue, ← hx]
    exact (State.setQueue_queue ..).trans (if_pos rfl)
  · rw [hqueue, ← hx, ← hw.otherQueue c hc]
    exact (State.setQueue_queue ..).trans (if_neg (Ne.symm hc))
  · rw [htables.store, ← withReleased_withoutOwn, ← hw.store, ← hx]
    rfl
  · rw [htables.slot, slotAfter_append, ← hw.slot, ← hx]
    rfl
  · have hprobes : x.st.probes k = w.st.probes k := by rw [← hx]; rfl
    rw [htables.probes, hprobes, hw.probes, List.countP_append, List.countP_singleton]
    omega
  · rw [transferLog_append]
    exact hafter
  · rw [htables.gen, hgen, hw.gen, List.countP_append, List.countP_singleton]
    refine congrArg (fun m => { s.gen with primesOutstanding := m }) ?_
    dsimp only
    by_cases hrun : s.gen.run = .priming
    · by_cases hprime : e.kind = .prime ∧ e.discarded = false
      · rw [if_pos hrun, if_pos ⟨hrun, hprime⟩, if_pos hrun, if_pos (by simp [hprime])]
        omega
      · rw [if_pos hrun, if_neg fun hand => hprime hand.2, if_pos hrun,
          if_neg (by simpa using hprime)]
        omega
    · rw [if_neg hrun, if_neg fun hand => hrun hand.1, if_neg hrun]
      omega
  · rw [hoffered, hout, hw.out, tells_append, length_transferLog]
  · have hother : x.st = { w.st with queues := x.st.queues } := by rw [← hx]; rfl
    rw [htables.rest, hother, hw.frame]

/-- R7, R73: the end of entries changes nothing that refill reads. -/
theorem Midway.reads {b : BusNo} {done : Bool} {bytes : List Byte} {s : State} {p left : List Entry}
    {n : Nat} {w : Work} (h : Midway b done bytes s p left n w) :
    (∀ i, w.st.slotBus i = s.slotBus i) ∧ refillEntryFor w.st = refillEntryFor s := by
  have hbuses : w.st.buses = s.buses := by rw [h.frame]
  refine ⟨fun i => ?_, funext fun x => ?_⟩
  · unfold State.slotBus State.device
    rw [h.slot, (slotAfter_names ..).1, hbuses]
  · obtain ⟨hdevice, hregister, hwidth, horder⟩ :=
      slotAfter_names done p x.slot (s.slot x.slot)
    have hrun : w.st.gen.run = s.gen.run := by rw [h.gen]
    have hc : w.st.gen.c = s.gen.c := by rw [h.gen]
    have hwindow : w.st.gen.window = s.gen.window := by rw [h.gen]
    unfold refillEntryFor writeEntryFor
    rw [h.slot, hdevice, hregister, hwidth, horder, hrun, hc, hwindow]

/-- R73: the deferred records that have not entered yet. -/
theorem Midway.deferredSet {b : BusNo} {done : Bool} {bytes : List Byte} {es rest : List Entry}
    {s : State} (h : TransferCarries b done es rest s) {p q left : List Entry} {n : Nat} {w : Work}
    (hes : es = p ++ q) (hw : Midway b done bytes s p left n w) :
    w.st.deferredSet b = (s.deferredSet b).drop n := by
  have hself : (withoutOwn p s.store).filter
      (fun x => x.state == .deferred && s.slotBus x.slot == some b) = s.deferredSet b := by
    unfold withoutOwn State.deferredSet
    rw [List.filter_filter]
    refine List.filter_congr fun x hx => ?_
    by_cases hd : x.state = .deferred
    · have hnone : p.any (fun e => e.kind == .write &&
          e.origin == .record x.batch x.position) = false := by
        refine List.any_eq_false.mpr fun e he => ?_
        have := h.records.2 x hx hd e (by rw [hes]; exact List.mem_append_left _ he)
        simp [this]
      rw [hnone, Bool.not_false, Bool.and_true]
    · simp [hd]
  have hnodup : (s.deferredSet b).Nodup := (store_nodup h.records.1).filter _
  rw [← filter_not_mem_take hnodup, State.deferredSet, hw.store]
  simp only [hw.reads.1]
  rw [filter_withReleased (fun _ => rfl), hself]

theorem take_upTo {α : Type} (l : List α) {n m k : Nat} (hnm : n ≤ m)
    (hk : k = m - min n l.length) : l.take n ++ (l.drop n).take k = l.take m := by
  subst hk
  obtain hlt | hge := Nat.lt_or_ge n l.length
  · rw [Nat.min_eq_left (Nat.le_of_lt hlt), ← List.take_add, Nat.add_sub_cancel' hnm]
  · rw [List.drop_of_length_le hge, List.take_nil, List.append_nil, List.take_of_length_le hge,
      List.take_of_length_le (Nat.le_trans hge hnm)]

/-- R73: the place that an entry has left is filled. -/
theorem midway_fillPlaces {b : BusNo} {done : Bool} {bytes : List Byte} {es rest : List Entry}
    {s : State} (h : TransferCarries b done es rest s) {p q left : List Entry} {n : Nat} {w : Work}
    (hes : es = p ++ q) (hn : n ≤ 32 - left.length) (hw : Midway b done bytes s p left n w) :
    Midway b done bytes s p left (32 - left.length) (w.update (fillPlaces b)) := by
  obtain ⟨hbus, hentry⟩ := hw.reads
  have hfill : fillPlaces b w.st = refill b w.st := by
    by_cases hrun : w.st.gen.run = .priming
    · have hlist : (refill b w.st).gen.primeList = [] := by
        rw [refill_gen, hw.gen]
        rw [hw.gen] at hrun
        exact (h.priming hrun).1
      unfold fillPlaces placePrimes
      dsimp only
      rw [hlist, refill_gen, if_pos hrun]
      rfl
    · exact fillPlaces_of_not_priming hrun
  have hrecords : RecordsDistinct w.st :=
    recordsDistinct_withReleased (s := { s with store := withoutOwn p s.store })
      (recordsDistinct_withoutOwn h.records.1 rfl) hw.store
  have hset := hw.deferredSet h hes
  have hplaces : 32 - (w.st.queue b).length =
      32 - left.length - min n (s.deferredSet b).length := by
    rw [hw.queue, List.length_append, List.length_map, List.length_take, Nat.sub_sub]
  have hentering : (s.deferredSet b).take n ++ enteringBehind w.st b (w.st.queue b) =
      (s.deferredSet b).take (32 - left.length) := by
    unfold enteringBehind
    rw [hset]
    exact take_upTo _ hn hplaces
  have hdeferred : ∀ x ∈ enteringBehind w.st b (w.st.queue b), x.state = .deferred :=
    fun x hx => (mem_enteringBehind hx).2.1
  have hstore := refill_store (b := b) (.inr hrecords)
  obtain ⟨hqueue, hother, hprobes, -⟩ := refill_spec b w.st
  have hst : (w.update (fillPlaces b)).st = refill b w.st := hfill
  refine {
    queue := ?_, otherQueue := fun c hc => ?_, store := ?_, slot := fun i => ?_,
    probes := fun k => ?_, books := ?_, gen := ?_, out := hw.out, frame := ?_ } <;> rw [hst]
  · rw [hqueue, ← hentering, List.map_append, ← List.append_assoc, ← hw.queue, hentry]
  · rw [hother c (Ne.symm hc), hw.otherQueue c hc]
  · rw [hstore, ← hentering, hw.store, withReleased_append hdeferred]
  · rw [State.slot, refill_slots]
    exact hw.slot i
  · rw [State.probes, hprobes]
    exact hw.probes k
  · exact hw.books.of_batches (refill_batches ..)
  · rw [refill_gen, hw.gen]
  · rw [refill_frame b w.st, hw.frame]

end Sys2Proof.TransferEnds

end


section
/-! PROOFS. The results of a whole transfer (R119), as a transfer's end hands them on. -/

set_option Elab.async false

namespace Sys2Proof.TransferResults

open Sys2Proof Sys2Proof.Machine Sys2Proof.Schedule Sys2Proof.QueueLaw Sys2Proof.Refills
open Sys2Proof.BookSequences Sys2Proof.Results Sys2Proof.TransferEnds Sys2Proof.TransferLaw

/-- R119: the entries of a transfer end one by one. -/
theorem midway_endEntries {b : BusNo} {done : Bool} {bytes : List Byte} {es rest : List Entry}
    {s : State} (h : TransferCarries b done es rest s) {q p : List Entry} {n : Nat} {w : Work}
    (hes : es = p ++ q) (hn : n ≤ 32 - (q ++ rest).length) (hlast : q = [] → n = 32 - rest.length)
    (hw : Midway b done bytes s p (q ++ rest) n w) :
    Midway b done bytes s es rest (32 - rest.length) (endEntries b done bytes q.length w) := by
  induction q generalizing p n w with
  | nil =>
    obtain rfl : es = p := hes.trans (List.append_nil p)
    rw [← hlast rfl]
    exact hw
  | cons e q ih =>
    rw [List.length_cons, endEntries_cons b done bytes q.length w e _ hw.queue]
    have hes' : es = (p ++ [e]) ++ q := hes.trans (List.append_cons p e q)
    have hroom : n ≤ 32 - (q ++ rest).length := Nat.le_trans hn (by simp; omega)
    refine ih hes' (Nat.le_refl _) (fun hq => by rw [hq, List.nil_append]) ?_
    exact midway_fillPlaces h hes' hroom (midway_handOn h hes hw)

/-- R51: the books of a batch after a transfer that carried the entries `own` of it. -/
theorem tallied_afterTransfer (done : Bool) (own : List Entry) (c : Batch) :
    tallied c (own.map (fun e => if done then e.doneOutcome else .failed)) =
      c.afterTransfer done own := by
  induction own generalizing c with
  | nil => cases done <;> rfl
  | cons e own ih =>
    have hcons : tallied c ((e :: own).map (fun e => if done then e.doneOutcome else .failed)) =
        tallied (c.tally (if done then e.doneOutcome else .failed))
          (own.map (fun e => if done then e.doneOutcome else .failed)) := rfl
    rw [hcons, ih]
    cases done
    · simp only [Batch.afterTransfer, Batch.tally, Bool.false_eq_true, if_false, List.length_cons,
        Nat.add_zero, Nat.sub_sub, Nat.add_assoc, Nat.add_comm 1]
    · have hlate : (e.late || e.stamp.isNone || e.stamp != e.deadline) =
          !(!e.late && e.stamp.isSome && e.stamp == e.deadline) := by
        cases e.late <;> cases e.stamp <;> simp [bne]
      unfold Entry.doneOutcome
      cases hon : (!e.late && e.stamp.isSome && e.stamp == e.deadline)
      all_goals
        rw [hon] at hlate
        simp [Batch.afterTransfer, Batch.tally, hon, hlate, Nat.sub_sub, Nat.add_comm]
        omega

theorem tallied_transferLog (r : BatchRef) (done : Bool) (es : List Entry) (c : Batch) :
    tallied c (outcomesOf r (transferLog done es)) =
      c.afterTransfer done (es.filter (fun e => e.batchOf == some r)) := by
  rw [outcomesOf_transferLog, tallied_afterTransfer]

theorem refsOf_transferLog (done : Bool) (es : List Entry) :
    refsOf (transferLog done es) = es.map Entry.batchOf := by
  unfold refsOf transferLog
  rw [List.map_map]
  refine List.map_congr_left fun e _ => ?_
  rw [Function.comp_apply, outcomeOf, Option.map_map]
  cases e.batchOf <;> rfl

/-- R17, R52, R122: what the entries of a transfer tell, in queue order. -/
theorem tells_eq {b : BusNo} {done : Bool} {es rest : List Entry} {s : State}
    (bytes : List Byte) (h : TransferCarries b done es rest s) :
    tells s done bytes es = offeredByTransfer s done bytes es := by
  have hbound := withinBooks_transferLog (p := es) (q := []) h (List.append_nil es).symm
  refine List.flatMap_congr fun j _ => ?_
  unfold tellAt offeredAt
  cases es[j]? with
  | none => rfl
  | some e =>
    dsimp only
    unfold tellEntry
    cases e.kind
    case write =>
      cases e.origin
      case record r position =>
        dsimp only
        rw [doneAt_whole _ hbound, refsOf_transferLog]
        cases s.completedAt (es.map Entry.batchOf) j with
        | none => rfl
        | some y =>
          obtain ⟨q, c⟩ := y
          exact congrArg (fun books => [batchDoneOf q s.gen.c books]) (tallied_transferLog ..)
      all_goals rfl
    all_goals cases e.origin <;> rfl

/-- R119: what the entries of a transfer have left, when the last place is filled. -/
theorem resultsHandedOn_of_midway {b : BusNo} {done : Bool} {bytes : List Byte}
    {es rest : List Entry} {s t : State} {x : Engine} (ht : t = s.setEngine b x)
    (h : TransferCarries b done es rest s) {w : Work}
    (hw : Midway b done bytes t es rest (32 - rest.length) w) :
    ResultsHandedOn b done es rest s w.st := by
  have hbound := withinBooks_transferLog (p := es) (q := []) h (List.append_nil es).symm
  have hdeferred : t.deferredSet b = s.deferredSet b := by rw [ht]; rfl
  have hentry : refillEntryFor t = refillEntryFor s := by rw [ht]; rfl
  have hentering : (t.deferredSet b).take (32 - rest.length) = enteringBehind s b rest := by
    rw [hdeferred]
    rfl
  have hslot : ∀ i, w.st.slot i = slotAfter done es i (s.slot i) := fun i => by
    rw [hw.slot, ht]
    rfl
  have hbooks : BooksAfter s (transferLog done es) w.st := by
    have hb := hw.books
    rw [ht] at hb
    exact ⟨hb.open_, hb.completed, hb.other, hb.sealList, hb.previousId⟩
  have hlength : ∀ r, (outcomesOf r (transferLog done es)).length =
      (es.filter (fun e => e.batchOf == some r)).length := fun r => by
    rw [outcomesOf_transferLog, List.length_map]
  refine {
    queue := ?_, otherQueue := fun c hc => ?_, store := ?_
    slot := fun e he i hkind hi => ?_
    otherSlots := fun i hi => (hslot i).trans (slotAfter_other _ hi)
    probes := fun k => ?_
    books := fun r n own hn hown => ⟨fun hlt => ?_, fun hne heq => ?_⟩
    otherBooks := fun k n hk => hbooks.other k n fun r hr hn => ?_
    sealList := ?_, gen := ?_, engine := fun c hc => ?_, frame := ?_ }
  · rw [hw.queue, hentering, hentry]
  · rw [hw.otherQueue c hc, ht]
    rfl
  · rw [hw.store, hentering, ht]
    rfl
  · rw [hslot, slotAfter_own _ h.slots he hkind hi]
    rfl
  · rw [hw.probes, ht]
    rfl
  · subst hown
    rw [hbooks.open_ r n hn (by rw [hlength]; exact hlt), tallied_transferLog]
  · subst hown
    refine hbooks.completed r n hn (fun hnil => hne ?_) (by rw [hlength]; exact heq)
    rw [← List.length_eq_zero_iff, ← hlength, hnil]
    rfl
  · refine List.eq_nil_of_length_eq_zero ?_
    rw [hlength, List.length_eq_zero_iff, List.filter_eq_nil_iff]
    exact fun e he => by simpa using hk r hr hn e he
  · rw [hbooks.sealList]
    refine List.filter_congr fun r _ => congrArg _ ?_
    unfold completes
    rw [length_transferLog, refsOf_transferLog]
  · rw [hw.gen, ht]
    rfl
  · rw [hw.frame, ht]
    exact (State.setEngine_engine ..).trans (if_neg (Ne.symm hc))
  · have hprevious : { w.st.batches with previousId := s.batches.previousId } = w.st.batches := by
      rw [← hbooks.previousId]
    rw [hprevious, hw.frame, ht]
    rfl

/-- R109, R115: the engine's own fields are no part of what its transfer carries. -/
theorem transferCarries_setEngine {b : BusNo} {done : Bool} {es rest : List Entry} {s : State}
    (x : Engine) (h : TransferCarries b done es rest s) :
    TransferCarries b done es rest (s.setEngine b x) :=
  ⟨h.queue, h.carried, h.slots, h.records, h.books, h.priming⟩

/-- R119: a transfer that neither ends priming nor makes it fail hands its results on. -/
theorem endTransfer_handsOn {b : BusNo} {done : Bool} {es rest : List Entry} {s : State}
    (x : Engine) (bytes : List Byte) (next : EngineState) (h : TransferCarries b done es rest s) :
    ∃ u : State, ResultsHandedOn b done es rest s u ∧ u.events = s.events ∧
      u.engine b = { x with state := next, xfer := none, stretching := false, stretchCount := 0 } ∧
      endTransfer b done bytes next ⟨s.setEngine b x, []⟩ =
        ⟨u, offeredByTransfer s done bytes es⟩ := by
  obtain ⟨hsome, hon, hoff⟩ := h.carried
  have hself : (s.setEngine b x).engine b = x := (State.setEngine_engine ..).trans (if_pos rfl)
  have hfreed : freeEngine b next (s.setEngine b x) = s.setEngine b
      { x with state := next, xfer := none, stretching := false, stretchCount := 0 } := by
    unfold freeEngine
    rw [hself]
    exact State.setEngine_setEngine ..
  obtain ⟨v, hv, hend⟩ := endTransfer_cases b done bytes next ⟨s.setEngine b x, []⟩
  have hcount : carriedCount ((s.setEngine b x).queue b) = es.length := by
    rw [State.queue, State.setEngine_queues]
    exact (congrArg carriedCount h.queue).trans (length_takeWhile_front hon hoff)
  have hwork : (⟨s.setEngine b x, []⟩ : Work).update (freeEngine b next) =
      ⟨freeEngine b next (s.setEngine b x), []⟩ := rfl
  rw [hwork, hcount, hfreed] at hv
  generalize hy : ({ x with state := next, xfer := none, stretching := false, stretchCount := 0 } :
    Engine) = y at hv ⊢
  have hcarries := transferCarries_setEngine y h
  have hmid : Midway b done bytes (s.setEngine b y) es rest (32 - rest.length) v := by
    rw [hv]
    exact midway_endEntries hcarries (p := []) rfl (Nat.zero_le _) (fun hnil => absurd hnil hsome)
      (midway_none done bytes hcarries.queue)
  have hstay : endTransfer b done bytes next ⟨s.setEngine b x, []⟩ = v := by
    obtain ⟨hrun, hpos, -, hzero, -⟩ | ⟨-, he⟩ := hend
    · have hrun' : s.gen.run = .priming := hrun
      have hcount0 : (s.setEngine b y).gen.primesOutstanding -
          (if (s.setEngine b y).gen.run = .priming then
            es.countP (fun e => e.kind == .prime && !e.discarded) else 0) = 0 := by
        rw [hmid.gen] at hzero
        exact hzero
      have hpos' : 0 < s.gen.primesOutstanding := hpos
      rw [State.setEngine_gen, if_pos hrun'] at hcount0
      obtain hquiet | ⟨-, hlt⟩ := (h.priming hrun').2
      · have hnone : es.countP (fun e => e.kind == .prime && !e.discarded) = 0 :=
          List.countP_eq_zero.mpr fun e he => by
            by_cases hk : e.kind = .prime
            · simp [hquiet e he hk]
            · simp [hk]
        omega
      · omega
    · exact he
  rw [hstay]
  refine ⟨v.st, resultsHandedOn_of_midway rfl h hmid, ?_, ?_, ?_⟩
  · rw [hmid.frame]
    rfl
  · rw [hmid.frame]
    exact (State.setEngine_engine ..).trans (if_pos rfl)
  · have hout : v.out = offeredByTransfer s done bytes es :=
      hmid.out.trans (tells_eq (s := s.setEngine b y) bytes hcarries)
    rw [← hout]

end Sys2Proof.TransferResults

end


section
/-! PROOFS. The end of a recovery (R137 to R139). -/

set_option Elab.async false

namespace Sys2Proof.Recoveries

open Sys2Proof Sys2Proof.Machine Sys2Proof.Commands Sys2Proof.Requests Sys2Proof.Refills
open Sys2Proof.Attempts Sys2Proof.TransferResults Sys2Proof.PortRules Sys2Proof.Stops

/-- R119: the engine of the transfer's bus is left open. -/
theorem resultsHandedOn_setEngine {b : BusNo} {done : Bool} {es rest : List Entry} {s u : State}
    (x : Engine) (h : ResultsHandedOn b done es rest s u) :
    ResultsHandedOn b done es rest s (u.setEngine b x) where
  queue := h.queue
  otherQueue := h.otherQueue
  store := h.store
  slot := h.slot
  otherSlots := h.otherSlots
  probes := h.probes
  books := h.books
  otherBooks := h.otherBooks
  sealList := h.sealList
  gen := h.gen
  engine c hc := ((State.setEngine_engine ..).trans (if_neg (Ne.symm hc))).trans (h.engine c hc)
  frame := congrArg (fun v : State => v.setEngine b x) h.frame

/-- R138: what a recovery that leaves the bus unfreed offers of it. -/
abbrev faultTold (b : BusNo) (faulted : Bool) (requester : Option Client) (s : State) : List Offer :=
  offersTo (fun j => (s.eventQueue j).bus || requester == some j) s (.busFault b faulted)

theorem faultTold_congr {s u : State} (b : BusNo) (faulted : Bool) (requester : Option Client)
    (hevents : u.events = s.events) (hc : u.gen.c = s.gen.c) :
    faultTold b faulted requester u = faultTold b faulted requester s :=
  offersTo_congr (·.bus) (fun j => requester == some j) _ hevents hc

theorem engine_set (b : BusNo) (s : State) (x : Engine) : (s.setEngine b x).engine b = x :=
  (State.setEngine_engine ..).trans (if_pos rfl)

/-- R138: the bus report, and its requester cleared. -/
theorem reported_finish (b : BusNo) (faulted : Bool) (requester : Option Client) (w : Work) :
    ((reportBus b faulted requester w).update
      (fun s => s.setEngine b { s.engine b with requester := none })).finish =
      deliver (w.st.setEngine b { w.st.engine b with requester := none })
        (w.out ++ faultTold b faulted requester w.st) := by
  have hout := reportBus_out b faulted requester w
  have hst := reportBus_st b faulted requester w
  generalize reportBus b faulted requester w = v at hout hst ⊢
  obtain ⟨st, out⟩ := v
  subst hout hst
  rfl

/-- R138: FAULT without a transfer. -/
theorem enterFault_idle {b : BusNo} {s : State} {x : Engine} (h : x.xfer = none) :
    (enterFault b (begin (s.setEngine b x))).finish =
      deliver (s.setEngine b { x with
        state := .fault, requester := none, stretching := false, stretchCount := 0 })
        (faultTold b true x.requester s) := by
  have hx : ((begin (s.setEngine b x)).st.engine b) = x := engine_set b s x
  unfold enterFault
  rw [hx]
  split
  next hsome => rw [h] at hsome; cases hsome
  next =>
    refine (reported_finish ..).trans ?_
    rw [Work.update_st, begin_st, engine_set, State.setEngine_setEngine, engine_set,
      State.setEngine_setEngine]
    rfl

/-- R138, R139: FAULT ends the transfer FAILED. -/
theorem enterFault_transfer {b : BusNo} {es rest : List Entry} {s : State} {x : Engine}
    {t : Transfer} (hx : x.xfer = some t) (h : TransferCarries b false es rest s) :
    ∃ u : State, ResultsHandedOn b false es rest s u ∧ u.events = s.events ∧
      u.engine b = { x with
        state := .fault, xfer := none, requester := none, stretching := false,
        stretchCount := 0 } ∧
      (enterFault b (begin (s.setEngine b x))).finish =
        deliver u (offeredByTransfer s false [] es ++ faultTold b true x.requester s) := by
  obtain ⟨u, hu, hevents, hengine, hend⟩ := endTransfer_handsOn x [] .fault h
  have hself : ((begin (s.setEngine b x)).st.engine b) = x := engine_set b s x
  refine ⟨u.setEngine b { u.engine b with requester := none }, resultsHandedOn_setEngine _ hu,
    hevents, ?_, ?_⟩
  · rw [engine_set, hengine]
  · unfold enterFault
    rw [hself, hx]
    refine (reported_finish ..).trans ?_
    have hwork : endTransfer b false [] .fault (begin (s.setEngine b x)) =
        ⟨u, offeredByTransfer s false [] es⟩ := hend
    rw [hwork]
    dsimp only
    rw [faultTold_congr b true x.requester hevents (by rw [hu.gen])]

theorem exec_recoveryEnd {b : BusNo} {lowLooks : Nat} {dataHigh clockHigh dataLow : Bool}
    {s : State} (hs : s.phase = .operating) (hstate : (s.engine b).state = .recovery)
    (hlimit : (s.engine b).limitExceeded = false) :
    exec (.recoveryEnd b lowLooks dataHigh clockHigh dataLow) s =
      .next (endRecovery b lowLooks (dataHigh && clockHigh) dataLow s).finish :=
  congrArg _ ((whenOperating_of hs _).trans (if_pos ⟨hstate, hlimit⟩))

/-- R137: the engine of a recovery once its pulses and its STOP are on the wires. -/
def pulsed (e : Engine) (lowLooks : Nat) (sent : List WireItem) : Engine :=
  { e with pulses := min lowLooks 9, sent := sent }

theorem endRecovery_eq {b : BusNo} {lowLooks : Nat} {freed dataLow : Bool} {s : State}
    {sent : List WireItem}
    (hsent : sent = (s.engine b).sent ++ List.replicate (min lowLooks 9) .pulse ++ [.stop]) :
    endRecovery b lowLooks freed dataLow s =
      if freed then
        match (s.engine b).xfer with
        | some t => retryOrFail b t dataLow (begin (s.setEngine b (pulsed (s.engine b) lowLooks sent)))
        | none => recovered b (begin (s.setEngine b (pulsed (s.engine b) lowLooks sent)))
      else enterFault b (begin (s.setEngine b (pulsed (s.engine b) lowLooks sent))) := by
  subst hsent
  rfl

/-- R139: a recovery without a transfer frees the bus. -/
theorem recovered_finish {b : BusNo} {s : State} {x : Engine} :
    (recovered b (begin (s.setEngine b x))).finish =
      deliver (s.setEngine b { x with
        state := .idle, requester := none, stretching := false, stretchCount := 0 })
        (faultTold b false x.requester s) := by
  have hx : ((begin (s.setEngine b x)).st.engine b) = x := engine_set b s x
  unfold recovered
  rw [hx]
  refine (reported_finish ..).trans ?_
  rw [Work.update_st, begin_st, engine_set, State.setEngine_setEngine, engine_set,
    State.setEngine_setEngine]
  exact congrArg _ (List.nil_append _)

/-- R137: a recovery that frees the bus leads to the next attempt. -/
theorem endRecovery_again {b : BusNo} {lowLooks : Nat} {dataLow : Bool} {s : State}
    {sent : List WireItem} {t : Transfer}
    (hsent : sent = (s.engine b).sent ++ List.replicate (min lowLooks 9) .pulse ++ [.stop])
    (hx : (s.engine b).xfer = some t) (ht : t.made < t.limit) :
    (endRecovery b lowLooks true dataLow s).finish =
      (s.setEngine b (beginAttempt t dataLow (pulsed (s.engine b) lowLooks sent))).setQueue b
        ((s.queue b).map (fun e =>
          if e.onBus then { e with attempts := t.made + (if dataLow then 1 else 0) } else e)) := by
  rw [endRecovery_eq hsent, if_pos rfl, hx]
  refine (retryOrFail_again ht).trans ?_
  rw [engine_set, State.setEngine_setEngine]
  rfl

/-- R137: a transfer without an attempt left ends FAILED, with the bus freed. -/
theorem endRecovery_failed {b : BusNo} {lowLooks : Nat} {dataLow : Bool} {s : State}
    {sent : List WireItem} {t : Transfer} {es rest : List Entry}
    (hsent : sent = (s.engine b).sent ++ List.replicate (min lowLooks 9) .pulse ++ [.stop])
    (hx : (s.engine b).xfer = some t) (ht : t.limit ≤ t.made)
    (h : TransferCarries b false es rest s) :
    ∃ u : State, ResultsHandedOn b false es rest s u ∧ u.events = s.events ∧
      u.engine b = { pulsed (s.engine b) lowLooks sent with
        state := .idle, xfer := none, stretching := false, stretchCount := 0 } ∧
      (endRecovery b lowLooks true dataLow s).finish =
        deliver u (offeredByTransfer s false [] es) := by
  obtain ⟨u, hu, hevents, hengine, hend⟩ :=
    endTransfer_handsOn (pulsed (s.engine b) lowLooks sent) [] .idle h
  refine ⟨u, hu, hevents, hengine, ?_⟩
  rw [endRecovery_eq hsent, if_pos rfl, hx]
  dsimp only
  unfold retryOrFail
  rw [if_neg (Nat.not_lt.mpr ht)]
  exact congrArg Work.finish hend

/-- Settles O43: a recovery ends with the bus freed or in FAULT. -/
theorem recoveryEndFreesOrFaultsTheBus : Obligations.RecoveryEndFreesOrFaultsTheBus := by
  unfold Obligations.RecoveryEndFreesOrFaultsTheBus
  intro b s hs
  have hlines : s.busLines b = (s.engine b).state.lines := by
    unfold State.busLines
    rw [hs]
  refine ⟨fun h => ?_, fun h => ?_, fun passed hstate hx hstretch hcount => ?_,
    fun passed t es rest hstate hx hstretch hcount hcarries => ?_,
    fun lowLooks dataHigh clockHigh dataLow sent hlimit hsent => ⟨fun hstate hx => ?_,
      fun t hstate hx ht hdata hclock hlow => ?_, fun t hstate hx ht hdata hclock hlow => ?_,
      fun t es rest hstate hx hcarries hleft => ?_, fun hstate => ?_⟩⟩
  · obtain h | h := h <;> rw [hlines, h] <;> rfl
  · obtain h | h := h <;> rw [hlines, h] <;> rfl
  · rw [exec_stretchLimitExceeded hs ((limitExceeded_iff _).mpr ⟨hstretch, hcount⟩)]
    unfold exceedStretch
    rw [hstate]
    exact congrArg _ (enterFault_idle hx)
  · obtain ⟨u, hu, hevents, hengine, hend⟩ := enterFault_transfer
      (x := { s.engine b with
        pulses := pulsesFor passed,
        sent := (s.engine b).sent ++ pulseItems (pulsesFor passed) }) hx hcarries
    refine ⟨u, hu, hevents, hengine, ?_⟩
    rw [exec_stretchLimitExceeded hs ((limitExceeded_iff _).mpr ⟨hstretch, hcount⟩)]
    unfold exceedStretch
    rw [hstate]
    exact congrArg _ hend
  · rw [exec_recoveryEnd hs hstate hlimit, endRecovery_eq hsent, hx]
    refine congrArg _ ?_
    cases dataHigh && clockHigh
    · exact enterFault_idle hx
    · exact recovered_finish
  · rw [exec_recoveryEnd hs hstate hlimit, hdata, hclock, hlow]
    have hagain : beginAttempt t false (pulsed (s.engine b) lowLooks sent) = { s.engine b with
        state := .transfer, stretching := false, stretchCount := 0, pulses := min lowLooks 9,
        sent := sent } := by simp [beginAttempt, pulsed, hx]
    rw [← hagain]
    exact congrArg _ (endRecovery_again hsent hx ht)
  · rw [exec_recoveryEnd hs hstate hlimit, hdata, hclock, hlow]
    exact congrArg _ (endRecovery_again hsent hx ht)
  · rw [exec_recoveryEnd hs hstate hlimit]
    cases hfreed : dataHigh && clockHigh
    · obtain ⟨u, hu, hevents, hengine, hend⟩ :=
        enterFault_transfer (x := pulsed (s.engine b) lowLooks sent) hx hcarries
      refine ⟨u, hu, hevents, fun hdata hclock => ?_, fun _ => ⟨hengine, ?_⟩⟩
      · rw [hdata, hclock] at hfreed
        cases hfreed
      · rw [endRecovery_eq hsent]
        exact congrArg _ hend
    · obtain ⟨hdata, hclock⟩ := Bool.and_eq_true_iff.mp hfreed
      obtain ⟨u, hu, hevents, hengine, hend⟩ :=
        endRecovery_failed (dataLow := dataLow) hsent hx (hleft hdata hclock) hcarries
      refine ⟨u, hu, hevents, fun _ _ => ⟨hengine, congrArg _ hend⟩, fun hlow => ?_⟩
      rw [hdata, hclock] at hlow
      obtain h | h := hlow <;> cases h
  · exact congrArg Host.Outcome.next
      ((whenOperating_of hs _).trans (if_neg fun h => hstate h.1))

end Sys2Proof.Recoveries

end


section
/-! PROOFS. The end of a transfer of one entry, with nothing deferred on its bus (R119, R120, R122). -/

set_option Elab.async false

namespace Sys2Proof.SingleEnds

open Sys2Proof Sys2Proof.Machine Sys2Proof.Commands Sys2Proof.PortRules Sys2Proof.QueueLaw
open Sys2Proof.Refills Sys2Proof.Results Sys2Proof.Detaching Sys2Proof.Attempts
open Sys2Proof.TransferLaw Sys2Proof.DispatchQueues

/-! ### The moments (R119, R135) -/

theorem exec_transferEnd {b : BusNo} {r0 r1 r2 r3 : Byte} {s : State} {t : Transfer}
    (hs : s.phase = .operating) (hstate : (s.engine b).state = .transfer)
    (hxfer : (s.engine b).xfer = some t) (hlimit : (s.engine b).limitExceeded = false) :
    exec (.transferEnd b r0 r1 r2 r3) s = .next (endTransfer b true [r0, r1, r2, r3] .idle
      (begin (putOnWires b t.wire s))).finish := by
  have hattempt : (s.engine b).attempting = some t := by
    simp [Engine.attempting, hstate, hlimit, hxfer]
  refine congrArg _ ((whenOperating_of hs _).trans ?_)
  simp only [hattempt]

/-- R135: the last failed attempt ends the transfer FAILED. -/
theorem exec_attemptNack_last {b : BusNo} {nack : Nack} {s : State} {t : Transfer}
    (hs : s.phase = .operating) (hstate : (s.engine b).state = .transfer)
    (hxfer : (s.engine b).xfer = some t) (hlimit : (s.engine b).limitExceeded = false)
    (hlast : t.limit ≤ t.made + 1) :
    exec (.attemptNack b nack) s = .next (endTransfer b false [] .idle
      (begin (putOnWires b (nackedWire nack.byte t.wire) s))).finish := by
  rw [exec_attemptNack hs hstate hxfer hlimit]
  unfold retryOrFail
  rw [if_neg (Nat.not_lt.mpr hlast)]

/-! ### One entry -/

/-- R73, R97: nothing waits for the freed place. -/
theorem fillPlaces_of_none {b : BusNo} {s : State} (h : s.deferredSet b = [])
    (hprimes : s.gen.run ≠ .priming ∨ s.gen.primeList = []) : fillPlaces b s = s := by
  unfold fillPlaces placePrimes
  rw [refill_of_none h]
  dsimp only
  obtain hrun | hlist := hprimes
  · rw [if_neg hrun]
  · rw [hlist, List.foldl_nil, ite_self]

/-- R119: the engine is idle, and the entries `rest` are left on the queue of bus `b`. -/
def freed (b : BusNo) (items : List WireItem) (rest : List Entry) (s : State) : State :=
  (s.setEngine b { s.engine b with
    state := .idle, xfer := none, stretching := false, stretchCount := 0,
    sent := (s.engine b).sent ++ items }).setQueue b rest

/-- R72: with the slots' devices as they were, no record joins a deferred set. -/
theorem deferredSet_none {b : BusNo} {s v : State} (h : s.deferredSet b = [])
    (hstore : ∀ x ∈ v.store, x ∈ s.store) (hdevice : ∀ i, (v.slot i).device = (s.slot i).device)
    (hbuses : v.buses.device = s.buses.device) : v.deferredSet b = [] := by
  refine List.eq_nil_iff_forall_not_mem.mpr fun x hx => ?_
  obtain ⟨hmem, hdeferred, hbus⟩ := mem_deferredSet.mp hx
  have hslotBus : v.slotBus x.slot = s.slotBus x.slot := by
    unfold State.slotBus State.device
    rw [hdevice, hbuses]
  rw [hslotBus] at hbus
  have hold : x ∈ s.deferredSet b := mem_deferredSet.mpr ⟨hstore x hmem, hdeferred, hbus⟩
  rw [h] at hold
  cases hold

/-- R73: after the entry, nothing enters the freed place. -/
theorem filled_single {b : BusNo} {e : Entry} {rest : List Entry} {s v : State} {done : Bool}
    {items : List WireItem} (hnone : s.deferredSet b = [])
    (hlist : s.gen.run ≠ .priming ∨ s.gen.primeList = [])
    (h : Handed e done (freed b items rest s) v) : fillPlaces b v = v := by
  refine fillPlaces_of_none (deferredSet_none hnone (fun x hx => ?_) (fun i => ?_) ?_) ?_
  · rw [h.store] at hx
    exact List.mem_of_mem_filter hx
  · rw [h.slot]
    split <;> rfl
  · rw [h.rest]
    rfl
  · rw [h.gen]
    exact hlist

section Single

variable {b : BusNo} {e : Entry} {rest : List Entry} {s : State} (hq : s.queue b = e :: rest)
  (hon : e.onBus = true) (hoff : ∀ x ∈ rest, x.onBus = false)
include hq hon hoff

/-- R119, R120: the one entry leaves, its place is filled, and then epoch S may begin. -/
theorem endTransfer_single (items : List WireItem) (done : Bool) (bytes : List Byte) {v : Work}
    (hv : v = (handOn e done bytes ⟨freed b items rest s, []⟩).update (fillPlaces b)) :
    endTransfer b done bytes .idle (begin (putOnWires b items s)) =
      if (s.gen.run = .priming ∧ 0 < s.gen.primesOutstanding) ∧
        v.st.gen.run = .priming ∧ v.st.gen.primesOutstanding = 0 then beginFirstEpoch v else v := by
  have hcount : carriedCount (s.queue b) = 1 := by
    rw [hq]
    exact length_takeWhile_front (front := [e]) (fun x hx => by
      obtain rfl := List.mem_singleton.mp hx; exact hon) hoff
  have hengine : (putOnWires b items s).engine b =
      { s.engine b with sent := (s.engine b).sent ++ items } :=
    (State.setEngine_engine ..).trans (if_pos rfl)
  have hfreed : (putOnWires b items s).setEngine b { (putOnWires b items s).engine b with
      state := .idle, xfer := none, stretching := false, stretchCount := 0 } =
      s.setEngine b { s.engine b with
        state := .idle, xfer := none, stretching := false, stretchCount := 0,
        sent := (s.engine b).sent ++ items } := by
    rw [hengine]
    exact State.setEngine_setEngine ..
  have hwork : (begin (putOnWires b items s)).update (fun s => s.setEngine b { s.engine b with
      state := .idle, xfer := none, stretching := false, stretchCount := 0 }) =
      ⟨s.setEngine b { s.engine b with
        state := .idle, xfer := none, stretching := false, stretchCount := 0,
        sent := (s.engine b).sent ++ items }, []⟩ :=
    congrArg (fun u => (⟨u, []⟩ : Work)) hfreed
  have hleft : endEntries b done bytes 1 ⟨s.setEngine b { s.engine b with
      state := .idle, xfer := none, stretching := false, stretchCount := 0,
      sent := (s.engine b).sent ++ items }, []⟩ = v := by
    rw [hv]
    exact endEntries_cons b done bytes 0 _ e rest hq
  unfold endTransfer
  rw [hwork]
  have hcount' : carriedCount ((s.setEngine b { s.engine b with
      state := .idle, xfer := none, stretching := false, stretchCount := 0,
      sent := (s.engine b).sent ++ items }).queue b) = 1 := hcount
  dsimp only
  rw [hcount', hleft]
  rfl

variable (hnone : s.deferredSet b = []) (hlist : s.gen.run ≠ .priming ∨ s.gen.primeList = [])
include hnone hlist

/-- R119: an entry whose end leaves priming in progress is handed on, and that is all. -/
theorem endTransfer_leaves (items : List WireItem) {done : Bool} (bytes : List Byte)
    (hleaves : LeavesPriming done s.gen e) :
    endTransfer b done bytes .idle (begin (putOnWires b items s)) =
      handOn e done bytes ⟨freed b items rest s, []⟩ := by
  have hgen : (freed b items rest s).gen = s.gen := rfl
  have h := (handedOn (w := ⟨freed b items rest s, []⟩) bytes hleaves).tables
  have hfill := filled_single hnone hlist h
  have hv : (handOn e done bytes ⟨freed b items rest s, []⟩).update (fillPlaces b) =
      handOn e done bytes ⟨freed b items rest s, []⟩ := by
    generalize handOn e done bytes ⟨freed b items rest s, []⟩ = v at hfill
    unfold Work.update
    rw [hfill]
  rw [endTransfer_single hq hon hoff items done bytes hv.symm]
  refine if_neg fun ⟨⟨hrun, hpos⟩, _, hzero⟩ => ?_
  rw [h.gen, hgen] at hzero
  dsimp only at hzero
  by_cases hprime : e.kind = .prime ∧ e.discarded = false
  · have := (hleaves hrun hprime.1 hprime.2).2
    rw [if_pos ⟨hrun, hprime⟩] at hzero
    omega
  · rw [if_neg fun hand => hprime hand.2] at hzero
    omega

end Single

theorem completeSlot_of_slot {e : Entry} {i : SlotNo} (done : Bool) (s : State)
    (h : e.slot = some i) : completeSlot e done s = s.setSlot i (completed e done (s.slot i)) := by
  unfold completeSlot completed
  rw [h]
  cases done
  · rfl
  · cases e.kind <;> rfl

theorem handOn_now {e : Entry} {i : SlotNo} {j : Client} {tag : Byte} (done : Bool)
    (bytes : List Byte) (w : Work) (hkind : e.kind = .now) (hslot : e.slot = some i)
    (horigin : e.origin = .client j tag) (hkept : e.discarded = false) :
    handOn e done bytes w = offerTo j (.writeDone tag i (if done then .done else .failed))
      (w.update (·.setSlot i (completed e done (w.st.slot i)))) := by
  have hw : w.update (completeSlot e done) =
      w.update (·.setSlot i (completed e done (w.st.slot i))) :=
    congrArg (fun u => (⟨u, w.out⟩ : Work)) (completeSlot_of_slot done w.st hslot)
  simp only [handOn, hkind, endNow, horigin, hslot, hkept, Bool.false_eq_true, if_false, hw]

theorem handOn_probe {e : Entry} {j : Client} {tag : Byte} (bytes : List Byte) (w : Work)
    (hkind : e.kind = .probe) (horigin : e.origin = .client j tag) (hkept : e.discarded = false) :
    handOn e true bytes w =
      offerTo j (.probeResult tag e.device .done (probeValue e.order (bytes.take e.width)))
        (w.update (fun s => s.setProbes j (s.probes j - 1))) := by
  simp only [handOn, hkind, endProbe, horigin, hkept, Bool.false_eq_true, if_false, if_true]

/-- R118: the outcome of a record, by the entry's late flag and stamp. -/
theorem doneOutcome_eq {e : Entry} {onTime : Bool}
    (h : onTime = true ↔ e.late = false ∧ e.stamp = e.deadline ∧ e.stamp ≠ none) :
    e.doneOutcome = if onTime then .onTime else .late := by
  have hsame : onTime = (!e.late && e.stamp.isSome && e.stamp == e.deadline) := by
    rw [Bool.eq_iff_iff, h]
    cases e.stamp <;> simp [and_comm]
  unfold Entry.doneOutcome
  rw [hsame]

end Sys2Proof.SingleEnds

end


section
/-! PROOFS. The end of a transfer, entry by entry and as a whole (R119, R120, R122). -/

set_option Elab.async false

namespace Sys2Proof.TransferEnd

open Sys2Proof Sys2Proof.Machine Sys2Proof.Commands Sys2Proof.Refills Sys2Proof.Results
open Sys2Proof.SingleEnds Sys2Proof.Starts Sys2Proof.Stops Sys2Proof.DispatchQueues
open Sys2Proof.Requests Sys2Proof.TransferResults Sys2Proof.Attempts Sys2Proof.ScheduleEvents
open Sys2Proof.Schedule

/-! ### WRITE (R51, R119) -/

/-- R51: the books of a batch once a record of it is done. -/
theorem tally_done (c : Batch) (onTime : Bool) :
    c.tally (if onTime then .onTime else .late) = { c with
      onTime := if onTime then c.onTime + 1 else c.onTime,
      late := if onTime then c.late else c.late + 1, unresolved := c.unresolved - 1 } := by
  cases onTime <;> rfl

/-- R51, R52: a resolved record is counted, and the last one completes its batch. -/
theorem resolve_counted {r : BatchRef} {position : Nat} {n : Fin 4} {c d : Batch}
    {o : RecordOutcome} {a : State} (hn : a.sealedContext r = some n) (hc : c = a.context r.client n)
    (hd : d = c.tally o) {u : State}
    (hu : u = a.setStore (a.store.filter (fun x => !(x.batch == r && x.position == position)))) :
    (2 ≤ c.unresolved →
      resolve r position o ⟨a, []⟩ =
        ⟨u.setContext r.client n d, []⟩) ∧
    (c.unresolved = 1 →
      resolve r position o ⟨a, []⟩ =
        ⟨(u.setContext r.client n Batch.empty).setSealList
          (a.batches.sealList.filter (fun x => x != r)),
          [⟨r.client, a.gen.c, d.doneEvent d.outcome⟩]⟩) := by
  have hresolve : ∀ o, resolve r position o ⟨a, []⟩ = countOutcome r o ⟨u, []⟩ := fun o => by
    rw [hu]
    rfl
  have hsealed : u.sealedContext r = some n := by
    rw [hu]
    exact hn
  have hcontext : u.context r.client n = c := by
    rw [hc, hu]
    rfl
  have hbatches : u.batches = a.batches := by rw [hu]; rfl
  have hgen : u.gen = a.gen := by rw [hu]; rfl
  rw [hresolve]
  obtain ⟨hnone, -⟩ | ⟨m, x, hm, hx, hcases⟩ :=
    countOutcome_cases r o ⟨u, []⟩
  · rw [hsealed] at hnone
    cases hnone
  · obtain rfl : n = m := Option.some.inj (hsealed.symm.trans hm)
    rw [hcontext, ← hd] at hx
    subst hx
    have hleft : x.unresolved = c.unresolved - 1 := by
      rw [hd]
      exact BookSequences.tally_unresolved ..
    obtain ⟨hzero, he⟩ | ⟨hzero, he⟩ := hcases
    · refine ⟨fun htwo => by omega, fun _ => he.trans ?_⟩
      unfold completeBatch offerTo Work.update
      rw [← hbatches, ← hgen]
      rfl
    · exact ⟨fun _ => he, fun hone => by omega⟩

/-! ### PRIME (R98, R99, R120) -/

theorem handOn_prime_counted {e : Entry} (bytes : List Byte) {w : Work} (hkind : e.kind = .prime)
    (hkept : e.discarded = false) (hrun : w.st.gen.run = .priming)
    (hpos : w.st.gen.primesOutstanding ≠ 0) :
    handOn e true bytes w = countPrime (w.update (completeSlot e true)) := by
  have hhand : handOn e true bytes w = endPrime e true w := by simp only [handOn, hkind]
  rw [hhand]
  unfold endPrime
  dsimp only
  rw [Work.update_st, completeSlot_gen, if_pos ⟨hrun, hkept⟩, if_pos rfl, if_neg hpos]

theorem handOn_prime_failed {e : Entry} {i : SlotNo} (bytes : List Byte) {w : Work}
    (hkind : e.kind = .prime) (hslot : e.slot = some i) (hkept : e.discarded = false)
    (hrun : w.st.gen.run = .priming) :
    handOn e false bytes w = failPriming i (w.update (completeSlot e false)) := by
  have hhand : handOn e false bytes w = endPrime e false w := by simp only [handOn, hkind]
  rw [hhand]
  unfold endPrime
  dsimp only
  rw [Work.update_st, completeSlot_gen, if_pos ⟨hrun, hkept⟩, if_neg Bool.false_ne_true, hslot]

/-- R120: one prime fewer is outstanding. -/
theorem countPrime_more {w : Work} (h : 2 ≤ w.st.gen.primesOutstanding) :
    countPrime w = w.update (fun s => s.setGen
      { s.gen with primesOutstanding := s.gen.primesOutstanding - 1 }) := by
  unfold countPrime
  dsimp only
  refine if_neg fun hzero => ?_
  have hz : w.st.gen.primesOutstanding - 1 = 0 := hzero
  omega

theorem countPrime_last {w : Work} (h : w.st.gen.primesOutstanding = 1) :
    countPrime w = closePriming (w.update (fun s => s.setGen
      { s.gen with primesOutstanding := s.gen.primesOutstanding - 1 })) := by
  unfold countPrime
  dsimp only
  refine if_pos ?_
  have hz : w.st.gen.primesOutstanding - 1 = 0 := by omega
  exact hz

/-- R106: the report of the end of priming. -/
theorem reportPrimed_of (w : Work) : reportPrimed w = ⟨setIssuer none w.st, w.out ++
    offersTo (fun j => (w.st.eventQueue j).sched || w.st.gen.issuer == some j) w.st
      (.scheduleState w.st.gen.run w.st.gen.mode .primed w.st.gen.issuer w.st.gen.c)⟩ := by
  unfold reportPrimed Work.update
  rw [reportSchedule_st, reportSchedule_out]

/-- R81: a record that is not stale. -/
theorem not_stale {start : Epoch} {x : PendingRecord}
    (h : x.state = .released ∨ (x.dispatch - start).toNat ≤ 240) : isStale start x = false := by
  unfold isStale distance
  obtain h | h := h
  · rw [h]
    rfl
  · rw [decide_eq_false (by omega), Bool.and_false]

/-- R98: the second pass drops nothing. -/
theorem closePriming_fresh {d : State} {out : List Offer}
    (hfresh : ∀ x ∈ d.store, isStale d.gen.startEpoch x = false) :
    closePriming ⟨d, out⟩ = match d.gen.mode with
      | .free => ⟨clearPrimes d, out⟩
      | .triggered => reportPrimed ⟨waitForTrigger ((clearPrimes d).setGen
          { (clearPrimes d).gen with c := d.gen.startEpoch - 1 }), out⟩ := by
  have hnone : dropStale d.gen.startEpoch ⟨d, out⟩ = ⟨d, out⟩ := dropStale_of_fresh hfresh
  unfold closePriming
  dsimp only
  rw [hnone]
  have hm : (clearPrimes d).gen.mode = d.gen.mode := rfl
  unfold Work.update
  dsimp only
  rw [hm]
  cases d.gen.mode <;> rfl

/-- R92, R98: the tables once epoch S has begun, with nothing due. -/
def firstEpoch (d : State) : State :=
  (advanceMarks (takePrograms (beginEpoch d.gen.startEpoch d))).draw

/-- R98: epoch S begins, and then the end of priming is reported. -/
theorem beginFirstEpoch_quiet {d : State}
    (hdue : ∀ x ∈ d.store, x.state = .waiting → x.dispatch ≠ d.gen.startEpoch) :
    beginFirstEpoch ⟨d, []⟩ = reportPrimed ⟨firstEpoch d,
      markOffers (beginEpoch d.gen.startEpoch d)⟩ := by
  have hbegin : startEpochNow d.gen.startEpoch ⟨d, []⟩ = ⟨firstEpoch d,
      [] ++ markOffers (beginEpoch d.gen.startEpoch d)⟩ :=
    boundary_quiet (w := ⟨beginEpoch d.gen.startEpoch d, []⟩) hdue
  unfold beginFirstEpoch
  dsimp only
  rw [hbegin, List.nil_append]

theorem firstEpoch_eq (d : State) : setIssuer none (firstEpoch d) = { d with
    gen := { d.gen with
      run := .running, c := d.gen.startEpoch, line := 0, issuer := none, window := .shut },
    outputs := (firstEpoch d).outputs, events := (firstEpoch d).events,
    draws := d.draws + 1 } := by
  unfold firstEpoch
  rw [epochBegun_eq]
  generalize (takePrograms (beginEpoch d.gen.startEpoch d)).outputs = outputs
  generalize (advanceMarks (beginEpoch d.gen.startEpoch d)).events = events
  rfl

theorem firstEpoch_output (d : State) (o : Fin 12) : (firstEpoch d).output o =
    (d.output o).takeProgram (d.liveProgram o) d.gen.startEpoch d.gen.vspan :=
  takePrograms_output (beginEpoch d.gen.startEpoch d) o

theorem firstEpoch_events {d : State} (h : ∀ j : Client, (d.eventQueue j).mark = false) :
    (firstEpoch d).events = d.events := by
  unfold firstEpoch
  rw [epochBegun_eq]
  exact advanceMarks_of_unmarked (s := beginEpoch d.gen.startEpoch d) h

end Sys2Proof.TransferEnd

end


section
/-! PROOFS. The results of transfers (R17, R98, R99, R119, R120, R122). -/

set_option Elab.async false

namespace Sys2Proof.TransferClauses

open Sys2Proof Sys2Proof.Machine Sys2Proof.Commands Sys2Proof.Refills Sys2Proof.Results
open Sys2Proof.SingleEnds Sys2Proof.Starts Sys2Proof.Stops Sys2Proof.DispatchQueues
open Sys2Proof.Requests Sys2Proof.TransferResults Sys2Proof.TransferEnd Sys2Proof.ScheduleEvents
open Sys2Proof.Schedule Sys2Proof.Attempts

section Single

variable {b : BusNo} {e : Entry} {rest : List Entry} {s : State} (hq : s.queue b = e :: rest)
  (hon : e.onBus = true) (hoff : ∀ x ∈ rest, x.onBus = false)
  (hnone : s.deferredSet b = []) (hlist : s.gen.run ≠ .priming ∨ s.gen.primeList = [])
include hq hon hoff hnone hlist

/-- R119: a NOW, PROBE or WRITE entry is handed on, and that is all. -/
theorem endTransfer_other {done : Bool} (items : List WireItem) (bytes : List Byte)
    (hkind : e.kind ≠ .prime) : endTransfer b done bytes .idle (begin (putOnWires b items s)) =
      handOn e done bytes ⟨freed b items rest s, []⟩ :=
  endTransfer_leaves hq hon hoff hnone hlist items bytes fun _ h => absurd h hkind

/-- R17: the end of a NOW entry. -/
theorem ends_now {i : SlotNo} {j : Client} {tag : Byte} (items : List WireItem) (done : Bool)
    (bytes : List Byte) (hkind : e.kind = .now) (hslot : e.slot = some i)
    (horigin : e.origin = .client j tag) (hkept : e.discarded = false) :
    (endTransfer b done bytes .idle (begin (putOnWires b items s))).finish =
      deliverOne ((freed b items rest s).setSlot i (completed e done (s.slot i)))
        { client := j, stamp := s.gen.c,
          event := .writeDone tag i (if done then .done else .failed) } := by
  rw [endTransfer_other hq hon hoff hnone hlist items bytes (by simp [hkind]),
    handOn_now done bytes _ hkind hslot horigin hkept]
  rfl

/-- R122: the end of a PROBE entry. -/
theorem ends_probe {j : Client} {tag : Byte} (items : List WireItem) (bytes : List Byte)
    (hkind : e.kind = .probe) (horigin : e.origin = .client j tag) (hkept : e.discarded = false) :
    (endTransfer b true bytes .idle (begin (putOnWires b items s))).finish =
      deliverOne ((freed b items rest s).setProbes j (s.probes j - 1))
        { client := j, stamp := s.gen.c,
          event := .probeResult tag e.device .done (probeValue e.order (bytes.take e.width)) } := by
  rw [endTransfer_other hq hon hoff hnone hlist items bytes (by simp [hkind]),
    handOn_probe bytes _ hkind horigin hkept]
  rfl

/-- R51, R52: the end of a WRITE entry that carries a record. -/
theorem ends_write {i : SlotNo} {r : BatchRef} {position : Nat} {n : Fin 4} {c d : Batch}
    {onTime : Bool} {u : State} (items : List WireItem) (bytes : List Byte) (hkind : e.kind = .write)
    (hslot : e.slot = some i) (horigin : e.origin = .record r position)
    (hn : s.sealedContext r = some n) (hc : c = s.context r.client n)
    (honTime : onTime = true ↔ e.late = false ∧ e.stamp = e.deadline ∧ e.stamp ≠ none)
    (hd : d = c.tally (if onTime then .onTime else .late))
    (hu : u = ((freed b items rest s).setSlot i (completed e true (s.slot i))).setStore
      (s.store.filter (fun x => !(x.batch == r && x.position == position)))) :
    (2 ≤ c.unresolved →
      (endTransfer b true bytes .idle (begin (putOnWires b items s))).finish =
        u.setContext r.client n d) ∧
    (c.unresolved = 1 →
      (endTransfer b true bytes .idle (begin (putOnWires b items s))).finish = deliverOne
        ((u.setContext r.client n Batch.empty).setSealList
          (s.batches.sealList.filter (fun x => x != r)))
        ⟨r.client, s.gen.c, d.doneEvent d.outcome⟩) := by
  have hslots : (⟨freed b items rest s, []⟩ : Work).update (completeSlot e true) =
      ⟨(freed b items rest s).setSlot i (completed e true (s.slot i)), []⟩ :=
    congrArg (fun u => (⟨u, []⟩ : Work)) (completeSlot_of_slot true (freed b items rest s) hslot)
  obtain ⟨hmore, hlast⟩ := resolve_counted (position := position)
    (a := (freed b items rest s).setSlot i (completed e true (s.slot i))) hn hc hd hu
  rw [endTransfer_other hq hon hoff hnone hlist items bytes (by simp [hkind]),
    handOn_write_record hkind horigin, if_pos rfl, doneOutcome_eq honTime, hslots]
  exact ⟨fun h => congrArg Work.finish (hmore h), fun h => congrArg Work.finish (hlast h)⟩

end Single

/-! ### PRIME -/

/-- R120: the tables once a PRIME entry has ended, before it is counted. -/
def primeEnded (b : BusNo) (items : List WireItem) (rest : List Entry) (e : Entry) (i : SlotNo)
    (done : Bool) (s : State) : State :=
  (freed b items rest s).setSlot i (completed e done (s.slot i))

theorem handOn_primeEnded {b : BusNo} {items : List WireItem} {rest : List Entry} {e : Entry}
    {i : SlotNo} {done : Bool} {s : State} (hslot : e.slot = some i) :
    (⟨freed b items rest s, []⟩ : Work).update (completeSlot e done) =
      ⟨primeEnded b items rest e i done s, []⟩ :=
  congrArg (fun u => (⟨u, []⟩ : Work)) (completeSlot_of_slot done (freed b items rest s) hslot)

theorem primeEnded_device (b : BusNo) (items : List WireItem) (rest : List Entry) (e : Entry)
    (i : SlotNo) (done : Bool) (s : State) (j : SlotNo) :
    ((primeEnded b items rest e i done s).slot j).device = (s.slot j).device := by
  unfold primeEnded
  rw [State.setSlot_slot]
  split
  · next h => rw [h]; rfl
  · rfl

/-- R98: the tables once the last PRIME entry has ended. -/
def lastPrimed (b : BusNo) (items : List WireItem) (rest : List Entry) (e : Entry) (i : SlotNo)
    (s : State) : State :=
  (primeEnded b items rest e i true s).setGen { s.gen with primeList := [], primesOutstanding := 0 }

/-- R98: the tables that wait for a trigger with C = S − 1. -/
def waiting (d : State) : State :=
  waitForTrigger (d.setGen { d.gen with c := d.gen.startEpoch - 1 })

/-- R98, R120: the last PRIME entry closes priming, with no stale record to drop. -/
theorem handOn_prime_last {b : BusNo} {e : Entry} (rest : List Entry) {s : State} {i : SlotNo}
    (hkind : e.kind = .prime) (hslot : e.slot = some i) (hkept : e.discarded = false)
    (hrun : s.gen.run = .priming) (items : List WireItem) (bytes : List Byte)
    (hlast : s.gen.primesOutstanding = 1)
    (hfresh : ∀ x ∈ s.store, isStale s.gen.startEpoch x = false) :
    handOn e true bytes ⟨freed b items rest s, []⟩ = match s.gen.mode with
      | .free => ⟨lastPrimed b items rest e i s, []⟩
      | .triggered => reportPrimed ⟨waiting (lastPrimed b items rest e i s), []⟩ := by
  have hpos : s.gen.primesOutstanding ≠ 0 := by omega
  rw [handOn_prime_counted bytes hkind hkept hrun hpos, handOn_primeEnded hslot,
    countPrime_last hlast]
  refine (closePriming_fresh (d := (primeEnded b items rest e i true s).setGen
    { s.gen with primesOutstanding := s.gen.primesOutstanding - 1 }) hfresh).trans ?_
  have hmode : ((primeEnded b items rest e i true s).setGen
    { s.gen with primesOutstanding := s.gen.primesOutstanding - 1 }).gen.mode = s.gen.mode := rfl
  rw [hmode]
  cases s.gen.mode <;> rfl

/-- R99: a PRIME entry that fails makes priming fail. -/
theorem failPriming_eq {i : SlotNo} {x y : State} (hy : y = enterStopped (abandonPrimes x)) :
    failPriming i ⟨x, []⟩ = ⟨setIssuer none y,
      y.gen.issuer.toList.map (fun j => ⟨j, y.gen.c, .primeFailed i⟩) ++
        offersTo (fun j => (y.eventQueue j).sched || y.gen.issuer == some j) y
          (.scheduleState y.gen.run y.gen.mode .primeFailed y.gen.issuer y.gen.c)⟩ := by
  unfold failPriming Work.update
  dsimp only
  rw [← hy, reportSchedule_st, reportSchedule_out]
  cases hissuer : y.gen.issuer <;> simp [offerTo, hissuer]

/-- R99: the tables once priming has failed. -/
theorem failed_spec {x y : State} (hdeferred : ∀ c, x.deferredSet c = [])
    (hrun : x.gen.run = .priming) (hy : y = enterStopped (abandonPrimes x)) :
    setIssuer none y = { x with
      gen := stopped x.gen, outputs := y.outputs,
      queues := { x.queues with queue := y.queues.queue } } ∧
    (∀ c, y.queue c = withoutPrimes (x.queue c)) ∧
    ∀ o, y.output o = (x.output o).inactive := by
  obtain ⟨hqueue, hstore, hframe⟩ := abandonPrimes_spec (s := x) (.inl hdeferred) fun _ => rfl
  rw [enteringBehind_of_none (hdeferred 0), enteringBehind_of_none (hdeferred 1), List.append_nil,
    withReleased_nil] at hstore
  rw [hstore] at hframe
  have hstopped := stopped_frame (abandonPrimes x)
  have houtput := enterStopped_output (abandonPrimes x)
  rw [← hy] at hstopped houtput
  generalize abandonPrimes x = a at hqueue hframe hstopped houtput
  have hquiet : a.gen.run.inEpoch = false := by
    rw [hframe]
    dsimp only
    rw [hrun]
    rfl
  rw [if_neg (by rw [hquiet]; exact Bool.false_ne_true)] at hstopped
  have hissuer : (setIssuer none y).queues = a.queues := by rw [hstopped]
  have hqueues : y.queues = a.queues := hissuer
  refine ⟨?_, fun c => ?_, fun o => ?_⟩
  · rw [hstopped, hqueues, hframe]
  · rw [State.queue, hqueues]
    refine (hqueue c).trans ?_
    rw [enteringBehind_of_none (hdeferred c), List.map_nil, List.append_nil]
  · rw [houtput, hframe]
    rfl

section Priming

variable {b : BusNo} {e : Entry} {rest : List Entry} {s : State} (hq : s.queue b = e :: rest)
  (hon : e.onBus = true) (hoff : ∀ x ∈ rest, x.onBus = false)
  (hnone : s.deferredSet b = [])
  {i : SlotNo} (hkind : e.kind = .prime) (hslot : e.slot = some i) (hkept : e.discarded = false)
  (hrun : s.gen.run = .priming)
include hq hon hoff hnone hkind hslot hkept hrun

/-- R120: a PRIME entry that is not the last. -/
theorem ends_prime_more (hlist : s.gen.primeList = []) (items : List WireItem) (bytes : List Byte)
    (hmore : 2 ≤ s.gen.primesOutstanding) :
    (endTransfer b true bytes .idle (begin (putOnWires b items s))).finish =
      (primeEnded b items rest e i true s).setGen
        { s.gen with primesOutstanding := s.gen.primesOutstanding - 1 } := by
  have hpos : s.gen.primesOutstanding ≠ 0 := by omega
  have hlimit : s.gen.primesOutstanding ≥ 2 := hmore
  rw [endTransfer_leaves hq hon hoff hnone (.inr hlist) items bytes fun _ _ _ => ⟨rfl, hmore⟩,
    handOn_prime_counted bytes hkind hkept hrun hpos, handOn_primeEnded hslot,
    countPrime_more hlimit]
  rfl

/-- R98: in TRIGGERED mode the last PRIME entry leaves the schedule waiting, and its end is reported. -/
theorem ends_prime_triggered (items : List WireItem) (bytes : List Byte)
    (hlast : s.gen.primesOutstanding = 1)
    (hfresh : ∀ x ∈ s.store, isStale s.gen.startEpoch x = false) (hmode : s.gen.mode = .triggered)
    {w : State} (hw : w = waiting (lastPrimed b items rest e i s)) :
    (endTransfer b true bytes .idle (begin (putOnWires b items s))).finish =
      deliver (setIssuer none w) (offersTo (fun j => (s.eventQueue j).sched ||
        s.gen.issuer == some j) w (.scheduleState .waitTrigger .triggered .primed s.gen.issuer
          (s.gen.startEpoch - 1))) := by
  have hgen : w.gen = { s.gen with
      run := .waitTrigger, c := s.gen.startEpoch - 1, line := 0, primeList := [],
      primesOutstanding := 0, window := .shut } := by rw [hw]; rfl
  have hevents : w.events = s.events := by rw [hw]; rfl
  have hqueues : ∀ j, w.eventQueue j = s.eventQueue j := fun j => by
    unfold State.eventQueue
    rw [hevents]
  have hhand : handOn e true bytes ⟨freed b items rest s, []⟩ = ⟨setIssuer none w,
      offersTo (fun j => (s.eventQueue j).sched || s.gen.issuer == some j) w
        (.scheduleState .waitTrigger .triggered .primed s.gen.issuer (s.gen.startEpoch - 1))⟩ := by
    rw [handOn_prime_last (b := b) rest hkind hslot hkept hrun items bytes hlast hfresh,
      hmode]
    dsimp only
    rw [← hw, reportPrimed_of]
    dsimp only
    rw [hgen, hmode]
    simp only [hqueues, List.nil_append]
  have hfill : fillPlaces b (setIssuer none w) = setIssuer none w := by
    refine fillPlaces_of_none (deferredSet_none hnone (fun x hx => ?_) (fun j => ?_) ?_) (.inl ?_)
    · rw [hw] at hx
      exact hx
    · rw [hw]
      exact primeEnded_device b items rest e i true s j
    · rw [hw]
      rfl
    · have hrunning : w.gen.run = .waitTrigger := by rw [hgen]
      exact fun hp => by
        have : w.gen.run = .priming := hp
        rw [hrunning] at this
        cases this
  have hv := congrArg (fun v : Work => v.update (fillPlaces b)) hhand
  dsimp only [Work.update] at hv
  rw [hfill] at hv
  rw [endTransfer_single hq hon hoff items true bytes hv.symm]
  refine congrArg Work.finish (if_neg fun ⟨_, hp, _⟩ => ?_)
  have hp' : w.gen.run = .priming := hp
  rw [hgen] at hp'
  cases hp'

/-- R98: in FREE mode the last PRIME entry lets epoch S begin, and its end is reported. -/
theorem ends_prime_free (items : List WireItem) (bytes : List Byte)
    (hlast : s.gen.primesOutstanding = 1)
    (hfresh : ∀ x ∈ s.store, isStale s.gen.startEpoch x = false) (hmode : s.gen.mode = .free)
    (hdue : ∀ x ∈ s.store, x.state = .waiting → x.dispatch ≠ s.gen.startEpoch)
    {d w : State} (hd : d = lastPrimed b items rest e i s) (hw : w = firstEpoch d) :
    (endTransfer b true bytes .idle (begin (putOnWires b items s))).finish =
      deliver (setIssuer none w) (markOffers (beginEpoch d.gen.startEpoch d) ++
        offersTo (fun j => (w.eventQueue j).sched || s.gen.issuer == some j) w
          (.scheduleState .running .free .primed s.gen.issuer s.gen.startEpoch)) := by
  have hdgen : d.gen = { s.gen with primeList := [], primesOutstanding := 0 } := by rw [hd]; rfl
  have hgen : w.gen = { d.gen with
      run := .running, c := d.gen.startEpoch, line := 0, window := .shut } := by
    rw [hw]
    unfold firstEpoch
    rw [epochBegun_eq]
    rfl
  have hfill : fillPlaces b d = d := by
    refine fillPlaces_of_none (deferredSet_none hnone (fun x hx => ?_) (fun j => ?_) ?_) (.inr ?_)
    · rw [hd] at hx
      exact hx
    · rw [hd]
      exact primeEnded_device b items rest e i true s j
    · rw [hd]
      rfl
    · rw [hdgen]
  have hhand := handOn_prime_last (b := b) rest hkind hslot hkept hrun items bytes hlast
    hfresh
  rw [hmode] at hhand
  dsimp only at hhand
  rw [← hd] at hhand
  have hv := congrArg (fun v : Work => v.update (fillPlaces b)) hhand
  dsimp only [Work.update] at hv
  rw [hfill] at hv
  have hbegins : (s.gen.run = .priming ∧ 0 < s.gen.primesOutstanding) ∧
      d.gen.run = .priming ∧ d.gen.primesOutstanding = 0 := by
    rw [hdgen]
    exact ⟨⟨hrun, by omega⟩, hrun, rfl⟩
  rw [endTransfer_single hq hon hoff items true bytes hv.symm, if_pos hbegins,
    beginFirstEpoch_quiet, reportPrimed_of, ← hw]
  · dsimp only
    rw [hgen, hdgen, hmode]
    rfl
  · rw [hd]
    exact hdue

omit hnone in
/-- R99: the last failed attempt of a PRIME entry makes priming fail. -/
theorem ends_prime_failed (items : List WireItem) (hdeferred : ∀ c, s.deferredSet c = [])
    {x y : State} (hx : x = primeEnded b items rest e i false s)
    (hy : y = enterStopped (abandonPrimes x)) :
    (endTransfer b false [] .idle (begin (putOnWires b items s))).finish =
      deliver (setIssuer none y) (s.gen.issuer.toList.map (fun j => ⟨j, s.gen.c, .primeFailed i⟩) ++
        offersTo (fun j => (s.eventQueue j).sched || s.gen.issuer == some j) s
          (.scheduleState .stopped s.gen.mode .primeFailed s.gen.issuer s.gen.c)) := by
  have hnobody : ∀ c, x.deferredSet c = [] := fun c => deferredSet_none (hdeferred c)
    (fun z hz => by rw [hx] at hz; exact hz)
    (fun j => by rw [hx]; exact primeEnded_device b items rest e i false s j) (by rw [hx]; rfl)
  obtain ⟨hframe, -, -⟩ := failed_spec hnobody (by rw [hx]; exact hrun) hy
  have hxgen : x.gen = s.gen := by rw [hx]; rfl
  have hxevents : x.events = s.events := by rw [hx]; rfl
  have habandon : (abandonPrimes x).gen = s.gen := by
    rw [← hxgen, (abandonPrimes_spec (s := x) (.inl hnobody) fun _ => rfl).2.2]
  have hgen : y.gen = { s.gen with
      run := .stopped, line := 0, latch := false, primeList := [], primesOutstanding := 0,
      window := .shut } := by
    rw [hy, enterStopped_gen, habandon]
  have hevents : ∀ j, y.eventQueue j = s.eventQueue j := fun j => by
    have hsame : y.events = s.events := (congrArg State.events hframe).trans hxevents
    unfold State.eventQueue
    rw [hsame]
  have hhand : handOn e false [] ⟨freed b items rest s, []⟩ = ⟨setIssuer none y,
      s.gen.issuer.toList.map (fun j => ⟨j, s.gen.c, .primeFailed i⟩) ++
        offersTo (fun j => (s.eventQueue j).sched || s.gen.issuer == some j) s
          (.scheduleState .stopped s.gen.mode .primeFailed s.gen.issuer s.gen.c)⟩ := by
    rw [handOn_prime_failed [] hkind hslot hkept hrun, handOn_primeEnded hslot, ← hx,
      failPriming_eq hy, hgen]
    unfold offersTo
    rw [hgen]
    simp only [hevents]
  have hfill : fillPlaces b (setIssuer none y) = setIssuer none y := by
    rw [hframe]
    exact fillPlaces_of_none (deferredSet_none (s := x) (hnobody b) (fun z hz => hz)
      (fun j => rfl) rfl) (.inl fun h => by cases h)
  have hv := congrArg (fun v : Work => v.update (fillPlaces b)) hhand
  dsimp only [Work.update] at hv
  rw [hfill] at hv
  rw [endTransfer_single hq hon hoff items false [] hv.symm]
  refine congrArg Work.finish (if_neg fun ⟨_, hp, _⟩ => ?_)
  have hp' : y.gen.run = .priming := hp
  rw [hgen] at hp'
  cases hp'

end Priming

end Sys2Proof.TransferClauses

end


section
/-! PROOFS. The end of a transfer, for each kind of entry and for every transfer (O40). -/

set_option Elab.async false

namespace Sys2Proof.TransferOutcome

open Sys2Proof Sys2Proof.Machine Sys2Proof.Commands Sys2Proof.Refills Sys2Proof.Results
open Sys2Proof.SingleEnds Sys2Proof.Starts Sys2Proof.Stops Sys2Proof.DispatchQueues
open Sys2Proof.Requests Sys2Proof.TransferResults Sys2Proof.TransferEnd Sys2Proof.ScheduleEvents
open Sys2Proof.Schedule Sys2Proof.TransferClauses Sys2Proof.Attempts

section Last

variable {b : BusNo} {e : Entry} {rest : List Entry} {s : State} (hq : s.queue b = e :: rest)
  (hon : e.onBus = true) (hoff : ∀ x ∈ rest, x.onBus = false)
  (hnone : s.deferredSet b = []) {i : SlotNo} (hkind : e.kind = .prime) (hslot : e.slot = some i)
  (hkept : e.discarded = false) (hrun : s.gen.run = .priming)
include hq hon hoff hkind hslot hkept hrun

section Done

include hnone

/-- R98: the schedule waits for its first trigger, and the end of priming is reported. -/
theorem last_prime_triggered (items : List WireItem) (bytes : List Byte)
    (hlast : s.gen.primesOutstanding = 1)
    (hfresh : ∀ x ∈ s.store, isStale s.gen.startEpoch x = false) (hmode : s.gen.mode = .triggered)
    {u : State} (hu : u = primeEnded b items rest e i true s) :
    ∃ v : State, (endTransfer b true bytes .idle (begin (putOnWires b items s))).finish =
        deliver v (offersTo (fun j => (s.eventQueue j).sched || s.gen.issuer == some j) v
          (.scheduleState .waitTrigger .triggered .primed s.gen.issuer (s.gen.startEpoch - 1))) ∧
      v = { u with
        gen := { s.gen with
          run := .waitTrigger, c := s.gen.startEpoch - 1, line := 0, primeList := [],
          primesOutstanding := 0, issuer := none, window := .shut },
        outputs := v.outputs } ∧
      ∀ o : Fin 12, (v.output o).program = (s.output o).program ∧
        (v.output o).selected = false ∧ (v.output o).active = false := by
  have hend := ends_prime_triggered hq hon hoff hnone hkind hslot hkept hrun items bytes hlast
    hfresh hmode rfl
  have hout : ∀ o, (waiting (lastPrimed b items rest e i s)).output o = (s.output o).inactive :=
    fun o => outputsInactive_output ..
  have hframe : setIssuer none (waiting (lastPrimed b items rest e i s)) = { u with
      gen := { s.gen with
        run := .waitTrigger, c := s.gen.startEpoch - 1, line := 0, primeList := [],
        primesOutstanding := 0, issuer := none, window := .shut },
      outputs := (waiting (lastPrimed b items rest e i s)).outputs } := by
    rw [hu]
    rfl
  generalize waiting (lastPrimed b items rest e i s) = w at hend hout hframe
  refine ⟨setIssuer none w, hend.trans ?_, hframe, fun o => ?_⟩
  · rfl
  · have ho : (setIssuer none w).output o = (s.output o).inactive := hout o
    rw [ho]
    exact ⟨rfl, rfl, rfl⟩

/-- R92, R98: epoch S begins with nothing due, and the end of priming is reported. -/
theorem last_prime_free (items : List WireItem) (bytes : List Byte)
    (hlast : s.gen.primesOutstanding = 1)
    (hfresh : ∀ x ∈ s.store, isStale s.gen.startEpoch x = false) (hmode : s.gen.mode = .free)
    (hdue : ∀ x ∈ s.store, x.state = .waiting → x.dispatch ≠ s.gen.startEpoch)
    {u : State} (hu : u = primeEnded b items rest e i true s) :
    ∃ v : State, (endTransfer b true bytes .idle (begin (putOnWires b items s))).finish = v ∧
      v = { u with
        gen := { s.gen with
          run := .running, c := s.gen.startEpoch, line := 0, primeList := [],
          primesOutstanding := 0, issuer := none, window := .shut },
        outputs := v.outputs, events := v.events, draws := s.draws + 1 } ∧
      (∀ o : Fin 12, (v.output o).program = u.liveProgram o) ∧
      ((∀ j : Client, (s.eventQueue j).mark = false) →
        v.events = (deliver s
          (offersTo (fun j => (s.eventQueue j).sched || s.gen.issuer == some j) v
            (.scheduleState .running .free .primed s.gen.issuer s.gen.startEpoch))).events) := by
  have hend := ends_prime_free hq hon hoff hnone hkind hslot hkept hrun items bytes hlast hfresh
    hmode hdue rfl rfl
  have hd : lastPrimed b items rest e i s = u.setGen
      { s.gen with primeList := [], primesOutstanding := 0 } := by
    rw [hu]
    rfl
  have hdevents : (lastPrimed b items rest e i s).events = s.events := rfl
  have hdraws : u.draws = s.draws := by rw [hu]; rfl
  have hstart : (lastPrimed b items rest e i s).gen.startEpoch = s.gen.startEpoch := rfl
  generalize lastPrimed b items rest e i s = d at hend hd hdevents hstart
  have hepoch := firstEpoch_eq d
  generalize hv : (endTransfer b true bytes .idle (begin (putOnWires b items s))).finish = v at hend
  have hdeliver := of_deliver hend
  have houtputs : v.outputs = (firstEpoch d).outputs := by rw [hdeliver]; rfl
  have hout : ∀ o, v.output o = (firstEpoch d).output o := fun o => by
    unfold State.output
    rw [houtputs]
  have hc : v.gen.c = (firstEpoch d).gen.c := by rw [hdeliver]; rfl
  refine ⟨v, rfl, ?_, fun o => ?_, fun hmark => ?_⟩
  · rw [houtputs]
    generalize v.events = events at hdeliver ⊢
    generalize (firstEpoch d).outputs = outputs at hepoch ⊢
    rw [hdeliver, hepoch, hd, ← hdraws]
    rfl
  · rw [hout, firstEpoch_output, hd]
    rfl
  · have hmark' : ∀ j : Client, (d.eventQueue j).mark = false := fun j => by
      unfold State.eventQueue
      rw [hdevents]
      exact hmark j
    have hevents : (firstEpoch d).events = s.events := (firstEpoch_events hmark').trans hdevents
    have hqueues : ∀ j, (firstEpoch d).eventQueue j = s.eventQueue j := fun j => by
      unfold State.eventQueue
      rw [hevents]
    have hmarks : markOffers (beginEpoch d.gen.startEpoch d) = [] := markOffers_of_unmarked hmark'
    have hsame : offersTo (fun j => ((firstEpoch d).eventQueue j).sched ||
          s.gen.issuer == some j) (firstEpoch d)
        (.scheduleState .running .free .primed s.gen.issuer s.gen.startEpoch) =
        offersTo (fun j => (s.eventQueue j).sched || s.gen.issuer == some j) v
          (.scheduleState .running .free .primed s.gen.issuer s.gen.startEpoch) := by
      unfold offersTo
      rw [hc]
      simp only [hqueues]
    rw [hmarks, List.nil_append, hsame] at hend
    have hissuer : (setIssuer none (firstEpoch d)).events = s.events :=
      (setIssuer_events none (firstEpoch d)).trans hevents
    exact (congrArg State.events hend).trans (deliver_events_congr hissuer _)

end Done

/-- R99: priming fails, and its end is reported. -/
theorem last_prime_failed (items : List WireItem) (hdeferred : ∀ c, s.deferredSet c = []) :
    ∃ v : State, (endTransfer b false [] .idle (begin (putOnWires b items s))).finish = deliver v
        ((s.gen.issuer.toList.map (fun j =>
          { client := j, stamp := s.gen.c, event := .primeFailed i })) ++
          offersTo (fun j => (s.eventQueue j).sched || s.gen.issuer == some j) s
            (.scheduleState .stopped s.gen.mode .primeFailed s.gen.issuer s.gen.c)) ∧
      v = { primeEnded b items rest e i false s with
        gen := stopped s.gen, outputs := v.outputs,
        queues := { s.queues with queue := v.queues.queue } } ∧
      (∀ c : BusNo, v.queue c =
        (((freed b [] rest s).queue c).filter (fun x => x.kind != .prime || x.onBus)).map (fun x =>
          if x.kind = .prime then { x with discarded := true } else x)) ∧
      ∀ o : Fin 12, (v.output o).program = (s.output o).program ∧
        (v.output o).selected = false ∧ (v.output o).active = false := by
  have hend := ends_prime_failed hq hon hoff hkind hslot hkept hrun items hdeferred rfl rfl
  have hnobody : ∀ c, (primeEnded b items rest e i false s).deferredSet c = [] := fun c =>
    deferredSet_none (hdeferred c) (fun z hz => hz) (primeEnded_device b items rest e i false s) rfl
  obtain ⟨hframe, hqueue, hout⟩ := failed_spec hnobody hrun rfl
  generalize enterStopped (abandonPrimes (primeEnded b items rest e i false s)) = y at *
  refine ⟨setIssuer none y, hend, hframe, fun c => ?_, fun o => ?_⟩
  · exact (hqueue c).trans (withoutPrimes_eq _)
  · have ho : (setIssuer none y).output o = (s.output o).inactive := hout o
    rw [ho]
    exact ⟨rfl, rfl, rfl⟩

end Last

/-- Settles O40: by the kind of the one entry carried, and for every transfer by its entries in turn. -/
theorem transferEndHandsTheResultOn : Obligations.TransferEndHandsTheResultOn := by
  refine ⟨fun b e rest t after r0 r1 r2 r3 s hs hstate hxfer hlimit hlist hq hon hoff hnone hafter =>
    ?_, fun b done es rest t r0 r1 r2 r3 byte dataLow s hs hstate hxfer hlimit hlast hcarries => ?_⟩
  · have hdone := exec_transferEnd (r0 := r0) (r1 := r1) (r2 := r2) (r3 := r3) hs hstate hxfer hlimit
    have hfailed : ∀ byte dataLow, t.limit ≤ t.made + 1 → _ := fun byte dataLow =>
      exec_attemptNack_last (nack := ⟨byte, dataLow⟩) hs hstate hxfer hlimit
    obtain rfl : after = fun items => freed b items rest s := funext hafter
    refine ⟨fun i j tag hkind hslot horigin hkept => ⟨?_, fun hlast byte dataLow => ?_⟩,
      fun j tag hkind horigin hkept => ?_,
      fun i r position n c d onTime u hkind hslot horigin hn hc honTime hd hu => ?_,
      fun i hkind hslot hkept hrun => ?_⟩
    · rw [hdone, ends_now hq hon hoff hnone hlist _ true _ hkind hslot horigin hkept]
      unfold completed
      rw [hkind]
      rfl
    · rw [hfailed byte dataLow hlast,
        ends_now hq hon hoff hnone hlist _ false _ hkind hslot horigin hkept]
      rfl
    · exact hdone.trans (congrArg _ (ends_probe hq hon hoff hnone hlist _ _ hkind horigin hkept))
    · have hslots : { s.slot i with
          live := e.value, liveState := .valid,
          applied := e.stamp.map (fun c => c + BitVec.ofNat 16 (s.slot i).lead) } =
          completed e true (s.slot i) := by
        unfold completed
        rw [hkind]
        rfl
      rw [hslots] at hu
      have hdone' := ends_write hq hon hoff hnone hlist t.wire [r0, r1, r2, r3] hkind hslot horigin
        hn hc honTime (hd.trans (tally_done c onTime).symm) hu
      rw [hdone]
      refine ⟨fun hmore => congrArg _ (hdone'.1 hmore), fun hone => ?_⟩
      rw [hdone'.2 hone]
      subst hd
      rfl
    · have hlist' : s.gen.primeList = [] := hlist.resolve_left fun h => h hrun
      have hslots : ∀ done, { s.slot i with
          live := e.value, liveState := if done then .valid else .uncertain, applied := none } =
          completed e done (s.slot i) := fun done => by
        unfold completed
        rw [hkind]
        cases done <;> rfl
      refine ⟨fun u hu => ?_, fun hlast hdeferred byte dataLow => ?_⟩
      · have hended : u = primeEnded b t.wire rest e i true s :=
          hu.trans (congrArg (State.setSlot (freed b t.wire rest s) i) (hslots true))
        rw [hdone]
        refine ⟨fun hmore => ?_, fun hone hfresh => ⟨fun hmode => ?_, fun hmode hdue => ?_⟩⟩
        · rw [ends_prime_more hq hon hoff hnone hkind hslot hkept hrun hlist' _ _ hmore, hended]
        · obtain ⟨v, hv, hrest⟩ := last_prime_triggered hq hon hoff hnone hkind hslot hkept hrun
            t.wire [r0, r1, r2, r3] hone (fun x hx => not_stale (hfresh x hx)) hmode hended
          exact ⟨v, congrArg _ hv, hrest⟩
        · obtain ⟨v, hv, hrest⟩ := last_prime_free hq hon hoff hnone hkind hslot hkept hrun
            t.wire [r0, r1, r2, r3] hone (fun x hx => not_stale (hfresh x hx)) hmode hdue hended
          exact ⟨v, congrArg _ hv, hrest⟩
      · have hended : (freed b (nackedWire byte t.wire) rest s).setSlot i { s.slot i with
            live := e.value, liveState := .uncertain, applied := none } =
            primeEnded b (nackedWire byte t.wire) rest e i false s :=
          congrArg (State.setSlot (freed b (nackedWire byte t.wire) rest s) i) (hslots false)
        rw [hfailed byte dataLow hlast, hended]
        obtain ⟨v, hv, hrest⟩ := last_prime_failed hq hon hoff hkind hslot hkept hrun
          (nackedWire byte t.wire) hdeferred
        exact ⟨v, congrArg _ hv, hrest⟩
  · cases done with
    | true =>
      obtain ⟨u, hu, hevents, hengine, hend⟩ := endTransfer_handsOn
        { s.engine b with sent := (s.engine b).sent ++ t.wire } [r0, r1, r2, r3] .idle hcarries
      refine ⟨u, hu, hevents, hengine, ?_⟩
      rw [if_pos rfl, exec_transferEnd hs hstate hxfer hlimit]
      exact congrArg (fun w : Work => Host.Outcome.next w.finish) hend
    | false =>
      obtain ⟨u, hu, hevents, hengine, hend⟩ := endTransfer_handsOn
        { s.engine b with sent := (s.engine b).sent ++ nackedWire byte t.wire } [] .idle hcarries
      refine ⟨u, hu, hevents, hengine, ?_⟩
      rw [if_neg Bool.false_ne_true, exec_attemptNack_last hs hstate hxfer hlimit (hlast rfl)]
      exact congrArg (fun w : Work => Host.Outcome.next w.finish) hend

end Sys2Proof.TransferOutcome

end


section
/-! PROOFS. A boundary at which records are due (R69 to R72, R92). -/

set_option Elab.async false

namespace Sys2Proof.Boundaries

open Sys2Proof Sys2Proof.Machine Sys2Proof.Commands Sys2Proof.Requests Sys2Proof.Refills
open Sys2Proof.BatchRequests Sys2Proof.Pieces Sys2Proof.ScheduleEvents Sys2Proof.SealedBooks Sys2Proof.QueueLaw Sys2Proof.Starts

/-! ### The boundary (R92) -/

/-- R69: the store once the records due at `e` are released, with what their release offers. -/
def released (e : Epoch) (s : State) : Work :=
  (s.dueRecords e).foldl releaseRecord (begin (beginEpoch e s))

theorem freeMerge_nil_right (draw : Nat) (a : List Offer) : freeMerge draw a [] = a := by
  unfold freeMerge
  cases a <;> rfl

/-- R92: what a boundary makes of the tables, where the releases lead to `w`. -/
structure BoundaryAfter (s : State) (w : Work) (t : State) : Prop where
  frame : t = { w.st with outputs := t.outputs, events := t.events, draws := t.draws }
  unmarked : (∀ k : Client, (s.eventQueue k).mark = false) → t.events = (deliver s w.out).events
  quiet : w.out = [] → ∀ k : Client, (s.eventQueue k).mark = false → t.eventQueue k = s.eventQueue k

theorem released_eq (e : Epoch) (s : State) :
    releaseDue ⟨beginEpoch e s, []⟩ = released e s := rfl

theorem released_rest (e : Epoch) (s : State) :
    (released e s).st.gen = { s.gen with run := .running, c := e, line := 0, window := .shut } ∧
      (released e s).st.claims = s.claims ∧ (released e s).st.buses = s.buses ∧
      (released e s).st.host = s.host ∧ (released e s).st.phase = s.phase ∧
      (released e s).st.pending = s.pending ∧ (released e s).st.events = s.events := by
  rw [← released_eq]
  exact ⟨releaseDue_gen .., releaseDue_claims .., releaseDue_buses .., releaseDue_host ..,
    releaseDue_phase .., releaseDue_pending .., releaseDue_events ..⟩

/-- R92: the releases, the programs, the marks. -/
theorem boundaryAfter (e : Epoch) (s : State) :
    BoundaryAfter s (released e s) (startEpochNow e (begin s)).finish := by
  obtain ⟨hgen, -, -, -, -, -, hevents⟩ := released_rest e s
  have hbegin : startEpochNow e (begin s) =
      ⟨(advanceMarks (takePrograms (released e s).st)).draw,
        freeMerge (released e s).st.draws (released e s).out (markOffers (released e s).st)⟩ := rfl
  generalize released e s = w at *
  have hqueues : ∀ k, w.st.eventQueue k = s.eventQueue k := fun k => by
    unfold State.eventQueue
    rw [hevents]
  have hepoch := epochBegun_eq w.st
  have hframe := deliver_eq (advanceMarks (takePrograms w.st)).draw
    (freeMerge w.st.draws w.out (markOffers w.st))
  rw [hbegin]
  refine ⟨?_, fun hmark => ?_, fun hout k hk => ?_⟩
  · unfold Work.finish
    dsimp only
    rw [hframe, hepoch]
  · have hmark' : ∀ k, (w.st.eventQueue k).mark = false := fun k => by rw [hqueues]; exact hmark k
    unfold Work.finish
    dsimp only
    rw [markOffers_of_unmarked hmark', freeMerge_nil_right]
    refine deliver_events_congr ?_ _
    rw [hepoch]
    exact (advanceMarks_of_unmarked hmark').trans hevents
  · unfold Work.finish
    dsimp only
    have hk' : (w.st.eventQueue k).mark = false := by rw [hqueues]; exact hk
    obtain ⟨hdue, hsame⟩ := advanceMark_of_unmarked hk'
    have hnone : (markOffers w.st).filter (·.client == k) = [] := by
      rw [markOffers_filter, if_neg (by rw [hdue]; exact Bool.false_ne_true)]
    rw [hout, freeMerge_nil, deliver_eventQueue, hnone]
    refine (advanceMarks_eventQueue _ k).trans ?_
    exact hsame.trans (hqueues k)

/-- R93: the end of an epoch in FREE mode begins the next, and releases what is due at it. -/
theorem exec_epochEnd_releases {s : State} {e : Epoch} (hs : s.phase = .operating)
    (hrun : s.gen.run = .running) (hmode : s.gen.mode = .free)
    (hline : s.gen.line + 1 = s.gen.vspan) (hopen : s.gen.openDue = false)
    (hclose : s.gen.closeDue = false) (he : e = s.gen.c + 1) :
    exec .epochEnd s = .next (startEpochNow e (begin s)).finish := by
  have hsame : s.setGen { s.gen with
      latch := if s.gen.mode = .free then s.gen.latch else false } = s := by
    rw [if_pos hmode]
    rfl
  rw [exec_epochEnd hs (by rw [hrun]; rfl) hline, endEpoch_begins hopen hclose hrun (.inl hmode),
    hsame, he]

/-- R92: what a boundary leaves where the releases left it. -/
theorem BoundaryAfter.rest {e : Epoch} {s t : State} (h : BoundaryAfter s (released e s) t) :
    t.gen.c = e ∧ t.claims = s.claims ∧ t.buses = s.buses ∧ t.host = s.host ∧
      t.phase = s.phase ∧ t.pending = s.pending := by
  obtain ⟨hgen, hclaims, hbuses, hhost, hphase, hpending, -⟩ := released_rest e s
  rw [h.frame]
  exact ⟨congrArg Generator.c hgen, hclaims, hbuses, hhost, hphase, hpending⟩

theorem BoundaryAfter.tables {s t : State} {w : Work} (h : BoundaryAfter s w t) :
    t.slots = w.st.slots ∧ t.store = w.st.store ∧ t.queues = w.st.queues ∧
      t.batches = w.st.batches := by
  rw [h.frame]
  exact ⟨rfl, rfl, rfl, rfl⟩

/-! ### One record (R50, R70 to R72) -/

/-- R50: a batch with a release is RELEASING. -/
theorem markReleasing_found {r : BatchRef} {n : Fin 4} {c : Batch} {s : State}
    (hn : s.sealedContext r = some n) (hc : c = s.context r.client n) :
    markReleasing r s = s.setContext r.client n { c with state := .releasing } := by
  unfold markReleasing
  rw [hn, hc]

theorem sealedContext_markReleasing {r : BatchRef} (q : BatchRef) {s : State} :
    (markReleasing r s).sealedContext q = s.sealedContext q := by
  cases hn : s.sealedContext r with
  | none =>
    unfold markReleasing
    rw [hn]
  | some n =>
    rw [markReleasing_found hn rfl]
    exact sealedContext_setContext_same hn rfl (sealedContext_isSealed hn).2

/-- R72: no older DEFERRED record for the slot. -/
theorem supersedeDeferred_none {i : SlotNo} {w : Work}
    (h : ∀ y ∈ w.st.store, y.state = .deferred → y.slot ≠ i) : supersedeDeferred i w = w := by
  unfold supersedeDeferred
  rw [List.find?_eq_none.mpr fun y hy => ?_]
  rw [Bool.and_eq_true, beq_iff_eq, beq_iff_eq]
  exact fun hboth => h y hy hboth.2 hboth.1

/-- R72, R78: the one older DEFERRED record for the slot is resolved SUPERSEDED. -/
theorem supersedeDeferred_one {i : SlotNo} {w : Work} {z : PendingRecord} (hz : z ∈ w.st.store)
    (hdeferred : z.state = .deferred) (hslot : z.slot = i)
    (honly : ∀ y ∈ w.st.store, y.state = .deferred → y.slot = i → y = z) :
    supersedeDeferred i w = resolve z.batch z.position .superseded w := by
  have hfind : w.st.store.find? (fun x => x.slot == i && x.state == .deferred) = some z := by
    cases hf : w.st.store.find? (fun x => x.slot == i && x.state == .deferred) with
    | none => exact absurd (List.find?_eq_none.mp hf z hz) (by simp [hslot, hdeferred])
    | some y =>
      have hy := List.find?_some hf
      rw [Bool.and_eq_true, beq_iff_eq, beq_iff_eq] at hy
      rw [honly y (List.mem_of_find?_eq_some hf) hy.2 hy.1]
  unfold supersedeDeferred
  rw [hfind]

/-- R111: nothing on the queue waits for the slot. -/
theorem supersede_nothing {b : BusNo} {i : SlotNo} {w : Work}
    (h : ∀ y ∈ w.st.queue b, y.waitsFor i = false) : supersede b i w = w := by
  obtain ⟨-, he⟩ | ⟨y, hfind, hwaits, -⟩ := supersede_cases b i w
  · exact he
  · rw [h y (List.mem_of_find?_eq_some hfind)] at hwaits
    cases hwaits

/-- R111, R112: the WAITING entry for the slot gives up its place, and its origin is told. -/
theorem supersede_waiting {b : BusNo} {i : SlotNo} {w : Work} {front back : List Entry} {y : Entry}
    (hq : w.st.queue b = front ++ y :: back) (hfront : ∀ f ∈ front, f.waitsFor i = false)
    (hy : y.waitsFor i = true) :
    supersede b i w = tellSuperseded y i (w.update (·.setQueue b (front ++ back))) := by
  have hfind : (w.st.queue b).find? (·.waitsFor i) = some y := hq ▸ find?_split hfront hy
  have herase : (w.st.queue b).eraseP (·.waitsFor i) = front ++ back := by
    rw [hq, List.eraseP_append_right _ (fun x hx => by simp [hfront x hx]),
      List.eraseP_cons_of_pos (p := fun x : Entry => x.waitsFor i) hy]
  obtain ⟨hnone, -⟩ | ⟨x, hx, -, he⟩ := supersede_cases b i w
  · rw [hfind] at hnone
    cases hnone
  · obtain rfl : y = x := Option.some.inj (hfind.symm.trans hx)
    rw [he, Work.update, herase]
    rfl

theorem setQueue_self (b : BusNo) (s : State) : s.setQueue b (s.queue b) = s := by
  unfold State.setQueue State.queue put
  rw [Vector.set_getElem_self]

/-- R71, R72: the record enters the queue behind `rest`, or becomes DEFERRED. -/
def admitted (b : BusNo) (x : PendingRecord) (rest : List Entry) (s : State) : State :=
  setRecordState x (if rest.length < 32 then .released else .deferred)
    (s.setQueue b (if rest.length < 32 then rest ++ [writeEntryFor s false x] else rest))

theorem releaseDownstream_admits {x : PendingRecord} {d : DeviceNo} {b : BusNo} {w v : Work}
    {rest : List Entry} (hb : b = (w.st.device d).bus)
    (hv : v = supersede b x.slot (supersedeDeferred x.slot w)) (hrest : v.st.queue b = rest)
    (hdevice : (v.st.slot x.slot).device = some d) :
    releaseDownstream x d w = v.update (admitted b x rest) := by
  obtain ⟨b', v', hb', hv', hcases⟩ := releaseDownstream_cases x d w
  obtain rfl : b = b' := hb.trans hb'.symm
  obtain rfl : v = v' := hv.trans hv'.symm
  have hentry : writeEntry (v.st.slot x.slot) d x false = writeEntryFor v.st false x := by
    unfold writeEntryFor
    rw [hdevice]
    rfl
  rw [hrest] at hcases
  obtain ⟨hroom, he⟩ | ⟨hfull, he⟩ := hcases
  · rw [he]
    unfold Work.update admitted
    dsimp only
    rw [if_pos hroom, if_pos hroom, hrest, hentry]
  · rw [he]
    unfold Work.update admitted
    rw [if_neg (Nat.not_lt.mpr hfull), if_neg (Nat.not_lt.mpr hfull), ← hrest, setQueue_self]

theorem markReleasing_slot (r : BatchRef) (w : Work) (i : SlotNo) :
    (w.update (markReleasing r)).st.slot i = w.st.slot i := by
  rw [Work.update_st, State.slot, markReleasing_slots]
  rfl

theorem releaseRecord_local {w : Work} {x : PendingRecord} (h : (w.st.slot x.slot).device = none) :
    releaseRecord w x = releaseLocal x (w.update (markReleasing x.batch)) := by
  simp only [releaseRecord, markReleasing_slot, h]

theorem releaseRecord_downstream {w : Work} {x : PendingRecord} {d : DeviceNo}
    (h : (w.st.slot x.slot).device = some d) :
    releaseRecord w x = releaseDownstream x d (w.update (markReleasing x.batch)) := by
  simp only [releaseRecord, markReleasing_slot, h]

/-- R68: among distinct records, `x` alone takes the state. -/
theorem setRecordState_store {x : PendingRecord} {st : RecordState} {s t : State} (h : RecordsDistinct s)
    (hx : x ∈ s.store) (ht : ∀ y ∈ t.store, y ∈ s.store) :
    (setRecordState x st t).store =
      t.store.map (fun y => if y = x then { x with state := st } else y) := by
  refine List.map_congr_left fun y hy => ?_
  by_cases hxy : y = x
  · subst hxy
    rw [if_pos rfl, if_pos ((PendingRecord.sameAs_iff y y).mpr rfl)]
  · rw [if_neg hxy, if_neg fun hsame => hxy (PendingRecord.eq_of_sameAs h hx (ht y hy) hsame)]

end Sys2Proof.Boundaries

end


section
/-! PROOFS. A boundary at which one record is due (R50 to R52, R70 to R72, R111, R112). -/

set_option Elab.async false

namespace Sys2Proof.SingleReleases

open Sys2Proof Sys2Proof.Machine Sys2Proof.Commands Sys2Proof.Requests Sys2Proof.Refills
open Sys2Proof.SealedBooks Sys2Proof.Boundaries Sys2Proof.TransferEnd Sys2Proof.BookSequences
open Sys2Proof.Pieces

theorem setContext_twice (k : Client) (n : Fin 4) (b c : Batch) (s : State) :
    (s.setContext k n b).setContext k n c = s.setContext k n c := by
  simp [State.setContext, put_put, put_get_same]

theorem setContext_batches {u v : State} (h : u.batches = v.batches) (k : Client) (n : Fin 4)
    (b : Batch) : (u.setContext k n b).batches = (v.setContext k n b).batches := by
  unfold State.setContext
  rw [h]

theorem setSealList_batches {u v : State} (h : u.batches = v.batches) (l : List BatchRef) :
    (u.setSealList l).batches = (v.setSealList l).batches := by
  unfold State.setSealList
  rw [h]

/-! ### The one record that is due (R69) -/

theorem dueRecords_one {x : PendingRecord} {front back : List PendingRecord} {e : Epoch} {s : State}
    (hstore : s.store = front ++ x :: back) (hstate : x.state = .waiting) (hx : x.dispatch = e)
    (hrest : ∀ y ∈ front ++ back, y.state = .waiting → y.dispatch ≠ e) : s.dueRecords e = [x] := by
  have hnot : ∀ y ∈ front ++ back, ¬ (y.state == .waiting && y.dispatch == e) = true :=
    fun y hy hdue => by
      rw [Bool.and_eq_true, beq_iff_eq, beq_iff_eq] at hdue
      exact hrest y hy hdue.1 hdue.2
  unfold State.dueRecords
  rw [hstore, List.filter_append, List.filter_cons_of_pos (by simp [hstate, hx]),
    List.filter_eq_nil_iff.mpr fun y hy => hnot y (List.mem_append_left _ hy),
    List.filter_eq_nil_iff.mpr fun y hy => hnot y (List.mem_append_right _ hy)]
  rfl

theorem released_one {x : PendingRecord} {e : Epoch} {s : State} (h : s.dueRecords e = [x]) :
    released e s = releaseRecord (begin (beginEpoch e s)) x := by
  unfold released
  rw [h]
  rfl

/-- R50, R92: the tables when the record's batch is RELEASING and epoch `e` has begun. -/
def releasing (e : Epoch) (r : BatchRef) (n : Fin 4) (c : Batch) (s : State) : State :=
  (beginEpoch e s).setContext r.client n { c with state := .releasing }

theorem begin_releasing {x : PendingRecord} {n : Fin 4} {c : Batch} {s : State} (e : Epoch)
    (hn : s.sealedContext x.batch = some n) (hc : c = s.context x.batch.client n) :
    (begin (beginEpoch e s)).update (markReleasing x.batch) =
      begin (releasing e x.batch n c s) :=
  congrArg begin (markReleasing_found (s := beginEpoch e s) hn hc)

theorem sealedContext_releasing {r : BatchRef} {n : Fin 4} {c : Batch} {s : State} (e : Epoch)
    (hn : s.sealedContext r = some n) (hc : c = s.context r.client n) (q : BatchRef) :
    (releasing e r n c s).sealedContext q = s.sealedContext q :=
  sealedContext_setContext_same (s := beginEpoch e s) hn rfl
    (by rw [hc]; exact (sealedContext_isSealed hn).2)

theorem releasing_context {r : BatchRef} {n : Fin 4} {c : Batch} {s : State} (e : Epoch) :
    (releasing e r n c s).context r.client n = { c with state := .releasing } :=
  (State.setContext_context ..).trans (if_pos ⟨rfl, rfl⟩)

/-! ### A local record (R8, R70) -/

section Local

variable {x : PendingRecord} {n : Fin 4} {c : Batch} {e : Epoch} {s : State}
  (hdue : s.dueRecords e = [x]) (hn : s.sealedContext x.batch = some n)
  (hc : c = s.context x.batch.client n) (hlocal : (s.slot x.slot).device = none)
include hdue hn hc hlocal

theorem released_local : released e s = resolve x.batch x.position .onTime
    (begin (applyLocal x (releasing e x.batch n c s))) := by
  have hslot : ((begin (beginEpoch e s)).st.slot x.slot).device = none := hlocal
  rw [released_one hdue, releaseRecord_local hslot, begin_releasing e hn hc]
  rfl

/-- R8, R51, R52: a local record is applied, resolved ON_TIME and counted. -/
theorem released_local_spec {front back : List PendingRecord} {d : Batch}
    (hstore : s.store.filter (fun y => !(y.batch == x.batch && y.position == x.position)) =
      front ++ back) (hx : x.dispatch = e)
    (hd : d = { c with
      state := .releasing, onTime := c.onTime + 1, unresolved := c.unresolved - 1 })
    {w : State} (hw : w = (released e s).st) :
    (w.store = front ++ back ∧ w.queues = s.queues ∧ w.slots = (s.setSlot x.slot
      { s.slot x.slot with live := x.value, liveState := .valid, applied := some e }).slots) ∧
    (2 ≤ c.unresolved → w.batches = (s.setContext x.batch.client n d).batches) ∧
    (c.unresolved = 1 →
      w.batches = ((s.setContext x.batch.client n Batch.empty).setSealList
        (s.batches.sealList.filter (fun y => y != x.batch))).batches ∧
      (released e s).out = [⟨x.batch.client, e, d.doneEvent d.outcome⟩]) := by
  have hreleased := released_local hdue hn hc hlocal
  generalize ha : applyLocal x (releasing e x.batch n c s) = a at hreleased
  have hsealed : a.sealedContext x.batch = some n := by
    rw [← ha]
    exact (sealedContext_releasing e hn hc x.batch).trans hn
  have hcontext : { c with state := .releasing } = a.context x.batch.client n := by
    rw [← ha]
    exact (releasing_context e).symm
  obtain ⟨hmore, hlast⟩ := resolve_counted (position := x.position) (o := .onTime)
    (d := d) hsealed hcontext hd rfl
  have hbatches : ∀ (u : State) (b : Batch), u.batches = a.batches →
      (u.setContext x.batch.client n b).batches = (s.setContext x.batch.client n b).batches :=
    fun u b hu => by
      refine (setContext_batches (hu.trans ?_) _ _ b).trans
        (congrArg State.batches (setContext_twice x.batch.client n { c with state := .releasing } b s))
      rw [← ha]
      rfl
  have hwhole : (begin a) = (⟨a, []⟩ : Work) := rfl
  rw [hwhole] at hreleased
  refine ⟨⟨?_, ?_, ?_⟩, fun htwo => ?_, fun hone => ?_⟩
  · rw [hw, hreleased, resolve_store, ← hstore, ← ha]
    rfl
  · rw [hw, hreleased, resolve_queues, ← ha]
    rfl
  · rw [hw, hreleased, resolve_slots, ← ha, ← hx]
    rfl
  · rw [hw, hreleased, hmore htwo]
    exact hbatches _ d rfl
  · refine ⟨?_, ?_⟩
    · have hlist : a.batches.sealList = s.batches.sealList := by rw [← ha]; rfl
      rw [hw, hreleased, hlast hone, hlist]
      exact setSealList_batches (hbatches _ Batch.empty rfl) _
    · rw [hreleased, hlast hone, ← ha]
      rfl

end Local

/-! ### A downstream record (R71, R72) -/

theorem writeEntryFor_congr {s t : State} (h : t.slots = s.slots) (late : Bool) (x : PendingRecord) :
    writeEntryFor t late x = writeEntryFor s late x := by
  unfold writeEntryFor State.slot
  rw [h]

/-- R71, R72: the record's entry joins the queue that the superseded ones left. -/
theorem admitted_spec {b : BusNo} {x : PendingRecord} {rest : List Entry} {s v : State}
    (hslots : v.slots = s.slots) (hqueues : v.queues = (s.setQueue b rest).queues) :
    (admitted b x rest v).queues = (s.setQueue b
      (if rest.length < 32 then rest ++ [writeEntryFor s false x] else rest)).queues ∧
    (admitted b x rest v).batches = v.batches ∧ (admitted b x rest v).slots = v.slots ∧
    (admitted b x rest v).store = (setRecordState x
      (if rest.length < 32 then .released else .deferred) v).store := by
  refine ⟨?_, rfl, rfl, rfl⟩
  have hset : ∀ q, (v.setQueue b q).queues = (s.setQueue b q).queues := fun q => by
    have htwice : (v.setQueue b q).queues = ((s.setQueue b rest).setQueue b q).queues := by
      unfold State.setQueue at hqueues ⊢
      rw [hqueues]
    rw [htwice, State.setQueue_setQueue]
  rw [← writeEntryFor_congr hslots]
  exact hset _

section Downstream

variable {x : PendingRecord} {n : Fin 4} {c : Batch} {e : Epoch} {s : State} {d : DeviceNo}
  {b : BusNo} (hdue : s.dueRecords e = [x]) (hn : s.sealedContext x.batch = some n)
  (hc : c = s.context x.batch.client n) (hdevice : (s.slot x.slot).device = some d)
  (hb : b = (s.device d).bus)
include hdue hn hc hdevice hb

/-- R71, R72: older changes of the slot are superseded, and then the record is admitted. -/
theorem released_downstream {v : Work} {rest : List Entry}
    (hv : v = supersede b x.slot (supersedeDeferred x.slot (begin (releasing e x.batch n c s))))
    (hrest : v.st.queue b = rest) : released e s = v.update (admitted b x rest) := by
  have hslot : ((begin (beginEpoch e s)).st.slot x.slot).device = some d := hdevice
  have hslots : v.st.slots = s.slots := by
    rw [hv, supersede_slots, supersedeDeferred_slots]
    rfl
  have hdevice' : (v.st.slot x.slot).device = some d := by
    rw [State.slot, hslots]
    exact hdevice
  rw [released_one hdue, releaseRecord_downstream hslot, begin_releasing e hn hc]
  exact releaseDownstream_admits (w := begin (releasing e x.batch n c s)) hb hv hrest hdevice'

/-- R71, R72: with no older change of the slot, the record's entry joins the queue or waits deferred. -/
theorem released_plain (hdeferred : ∀ y ∈ s.store, y.state = .deferred → y.slot ≠ x.slot)
    (hwaits : ∀ y ∈ s.queue b, y.waitsFor x.slot = false) {rest : List Entry}
    (hrest : rest = s.queue b) : released e s =
      (begin (releasing e x.batch n c s)).update (admitted b x rest) := by
  refine released_downstream hdue hn hc hdevice hb ?_ hrest.symm
  rw [supersedeDeferred_none (w := begin (releasing e x.batch n c s)) hdeferred,
    supersede_nothing (w := begin (releasing e x.batch n c s)) hwaits]

/-- R78, R112: the older change was a record: deferred, or carried by the WAITING entry. -/
theorem released_over_record {old : BatchRef} {position : Nat} {rest : List Entry}
    (h : (∃ z ∈ s.store, z.state = .deferred ∧ z.slot = x.slot ∧ z.batch = old ∧
          z.position = position ∧ (∀ y ∈ s.store, y.state = .deferred → y.slot = x.slot → y = z) ∧
          rest = s.queue b ∧ ∀ y ∈ s.queue b, y.waitsFor x.slot = false) ∨
        (∀ y ∈ s.store, y.state = .deferred → y.slot ≠ x.slot) ∧
          ∃ (front back : List Entry) (y : Entry), s.queue b = front ++ y :: back ∧
            rest = front ++ back ∧ rest.length < 32 ∧ y.kind = .write ∧ y.onBus = false ∧
            y.slot = some x.slot ∧ y.origin = .record old position ∧
            ∀ f ∈ front, f.waitsFor x.slot = false) :
    released e s = (resolve old position .superseded
      (begin ((releasing e x.batch n c s).setQueue b rest))).update (admitted b x rest) := by
  refine released_downstream hdue hn hc hdevice hb ?_ ?_
  · obtain ⟨z, hz, hzstate, hzslot, rfl, rfl, honly, rfl, hwaits⟩ |
      ⟨hnone, front, back, y, hq, rfl, -, hkind, hbus, hslot, horigin, hfront⟩ := h
    · have hself : (releasing e x.batch n c s).setQueue b (s.queue b) = releasing e x.batch n c s :=
        setQueue_self b (releasing e x.batch n c s)
      rw [hself, supersedeDeferred_one (w := begin (releasing e x.batch n c s)) hz hzstate hzslot
        honly, supersede_nothing]
      rw [State.queue, resolve_queues]
      exact hwaits
    · have hy : y.waitsFor x.slot = true := by simp [Entry.waitsFor, hkind, hbus, hslot]
      rw [supersedeDeferred_none (w := begin (releasing e x.batch n c s)) hnone,
        supersede_waiting (w := begin (releasing e x.batch n c s)) hq hfront hy, tellSuperseded,
        horigin]
      rfl
  · rw [State.queue, resolve_queues]
    exact (State.setQueue_queue ..).trans (if_pos rfl)

/-- R112: the older change was a WRITE_NOW, whose client is told. -/
theorem released_over_now {front back : List Entry} {y : Entry} {j : Client} {tag : Byte}
    {rest : List Entry} (hnone : ∀ z ∈ s.store, z.state = .deferred → z.slot ≠ x.slot)
    (hq : s.queue b = front ++ y :: back) (hrest : rest = front ++ back) (hkind : y.kind = .now)
    (hbus : y.onBus = false) (hslot : y.slot = some x.slot) (horigin : y.origin = .client j tag)
    (hfront : ∀ f ∈ front, f.waitsFor x.slot = false) :
    released e s = (offerTo j (.writeDone tag x.slot .superseded)
      (begin ((releasing e x.batch n c s).setQueue b rest))).update (admitted b x rest) := by
  have hy : y.waitsFor x.slot = true := by simp [Entry.waitsFor, hkind, hbus, hslot]
  refine released_downstream hdue hn hc hdevice hb ?_ ?_
  · rw [supersedeDeferred_none (w := begin (releasing e x.batch n c s)) hnone,
      supersede_waiting (w := begin (releasing e x.batch n c s)) hq hfront hy, tellSuperseded,
      horigin, ← hrest]
    rfl
  · exact (State.setQueue_queue ..).trans (if_pos rfl)

end Downstream

end Sys2Proof.SingleReleases

end


section
/-! PROOFS. What a boundary at which one record is due leaves (R50 to R52, R70 to R72, R111, R112). -/

set_option Elab.async false

namespace Sys2Proof.BoundaryOfOne

open Sys2Proof Sys2Proof.Machine Sys2Proof.Commands Sys2Proof.Requests Sys2Proof.Refills
open Sys2Proof.SealedBooks Sys2Proof.Boundaries Sys2Proof.TransferEnd Sys2Proof.BookSequences
open Sys2Proof.Pieces Sys2Proof.SingleReleases

/-! ### The store -/

theorem filter_others {x : PendingRecord} {front back l : List PendingRecord}
    (hl : l = front ++ x :: back)
    (h : ∀ y ∈ front ++ back, y.batch ≠ x.batch ∨ y.position ≠ x.position) :
    l.filter (fun y => !(y.batch == x.batch && y.position == x.position)) = front ++ back := by
  have hkeep : ∀ y ∈ front ++ back, (!(y.batch == x.batch && y.position == x.position)) = true :=
    fun y hy => by
      rw [Bool.not_eq_true', Bool.and_eq_false_iff, beq_eq_false_iff_ne, beq_eq_false_iff_ne]
      exact h y hy
  rw [hl, List.filter_append, List.filter_cons_of_neg (by simp),
    List.filter_eq_self.mpr fun y hy => hkeep y (List.mem_append_left _ hy),
    List.filter_eq_self.mpr fun y hy => hkeep y (List.mem_append_right _ hy)]

/-- R68: where no other record has the batch and the position of `x`, `x` alone takes the state. -/
theorem setRecordState_split {x : PendingRecord} {front back : List PendingRecord} {st : RecordState}
    {v : State} (hstore : v.store = front ++ x :: back)
    (h : ∀ y ∈ front ++ back, y.batch ≠ x.batch ∨ y.position ≠ x.position) :
    (setRecordState x st v).store = front ++ { x with state := st } :: back := by
  have hkeep : ∀ y ∈ front ++ back,
      (if x.sameAs y then { y with state := st } else y) = y := fun y hy => by
    refine if_neg fun hsame => ?_
    have he := (PendingRecord.sameAs_iff x y).mp hsame
    obtain hne | hne := h y hy
    · exact hne (congrArg (fun z => z.batch) he)
    · exact hne (congrArg (fun z => z.position) he)
  have hmap : ∀ l : List PendingRecord, (∀ y ∈ l, y ∈ front ++ back) →
      l.map (fun y => if x.sameAs y then { y with state := st } else y) = l := fun l hl =>
    (List.map_congr_left fun y hy => hkeep y (hl y hy)).trans (List.map_id _)
  unfold setRecordState
  rw [State.setStore_store, hstore, List.map_append, List.map_cons,
    hmap front fun y hy => List.mem_append_left _ hy,
    hmap back fun y hy => List.mem_append_right _ hy,
    if_pos ((PendingRecord.sameAs_iff x x).mpr rfl)]

/-- R68: a change of state leaves a record its batch and its position. -/
theorem map_filter_named {x : PendingRecord} {st : RecordState} (old : BatchRef) (position : Nat)
    (l : List PendingRecord) :
    (l.filter (fun y => !(y.batch == old && y.position == position))).map (fun y =>
        if y = x then { x with state := st } else y) =
      (l.map (fun y => if y = x then { x with state := st } else y)).filter (fun y =>
        !(y.batch == old && y.position == position)) := by
  rw [List.filter_map]
  refine congrArg _ (List.filter_congr fun y _ => ?_)
  rw [Function.comp_apply]
  by_cases h : y = x
  · rw [if_pos h, h]
  · rw [if_neg h]

/-! ### One older change (R78, R111, R112) -/

section Downstream

variable {x : PendingRecord} {n : Fin 4} {c : Batch} {e : Epoch} {s : State} {b : BusNo}
  {rest : List Entry} (hdue : s.dueRecords e = [x]) (hdistinct : RecordsDistinct s)
include hdue hdistinct

/-- R68: in the store that is left, the record alone changes its state. -/
theorem admitted_store {v : State} (hslots : v.slots = s.slots)
    (hqueues : v.queues = (s.setQueue b rest).queues) (hstore : ∀ y ∈ v.store, y ∈ s.store) :
    (admitted b x rest v).store = v.store.map (fun y => if y = x
      then { x with state := if rest.length < 32 then .released else .deferred } else y) := by
  have hx : x ∈ s.store := by
    have hmem : x ∈ s.dueRecords e := by rw [hdue]; exact List.mem_singleton.mpr rfl
    exact List.mem_of_mem_filter hmem
  rw [(admitted_spec hslots hqueues).2.2.2]
  exact setRecordState_store hdistinct hx hstore

variable {after : State}
  (hafter : after = ((s.setContext x.batch.client n { c with state := .releasing }).setQueue b
    (if rest.length < 32 then rest ++ [writeEntryFor s false x] else rest)).setStore
    (s.store.map (fun y => if y = x
      then { x with state := if rest.length < 32 then .released else .deferred } else y)))
include hafter

/-- R78: the older change's record is resolved SUPERSEDED in its own batch. -/
theorem over_record {old : BatchRef} {position : Nat} {m : Fin 4} {o : Batch}
    (hn : s.sealedContext x.batch = some n) (hc : c = s.context x.batch.client n) (hother : old ≠ x.batch) (hm : s.sealedContext old = some m) (ho : o = s.context old.client m)
    {w : Work} (hw : w = (resolve old position .superseded
      (begin ((releasing e x.batch n c s).setQueue b rest))).update (admitted b x rest)) :
    w.st.slots = s.slots ∧ w.st.queues = after.queues ∧
    w.st.store = after.store.filter (fun y => !(y.batch == old && y.position == position)) ∧
    (2 ≤ o.unresolved → w.st.batches = (after.setContext old.client m
        { o with superseded := o.superseded + 1, unresolved := o.unresolved - 1 }).batches ∧
      w.out = []) ∧
    (o.unresolved = 1 → w.st.batches = ((after.setContext old.client m Batch.empty).setSealList
        (s.batches.sealList.filter (fun r => r != old))).batches ∧
      w.out = [batchDoneOf old e { o with superseded := o.superseded + 1 }]) := by
  generalize ha : (releasing e x.batch n c s).setQueue b rest = a at hw
  have hsealed : a.sealedContext old = some m := by
    rw [← ha]
    exact (sealedContext_releasing e hn hc old).trans hm
  have hcontext : o = a.context old.client m := by
    have hrest : (releasing e x.batch n c s).context old.client m = s.context old.client m :=
      (State.setContext_context ..).trans (if_neg (sealedContext_ne hn hm hother))
    rw [ho, ← hrest, ← ha]
    rfl
  obtain ⟨hmore, hlast⟩ := resolve_counted (position := position) (o := .superseded)
    (d := o.tally .superseded) hsealed hcontext rfl rfl
  have hslots : (resolve old position .superseded (begin a)).st.slots = s.slots := by
    rw [resolve_slots, ← ha]
    rfl
  have hqueues : (resolve old position .superseded (begin a)).st.queues =
      (s.setQueue b rest).queues := by
    rw [resolve_queues, ← ha]
    rfl
  have hstore : (resolve old position .superseded (begin a)).st.store =
      s.store.filter (fun y => !(y.batch == old && y.position == position)) := by
    rw [resolve_store, ← ha]
    rfl
  have hleft := admitted_store hdue hdistinct hslots hqueues fun y hy => by
    rw [hstore] at hy
    exact List.mem_of_mem_filter hy
  obtain ⟨hqueue, hbatches, hslot, -⟩ := admitted_spec (x := x) hslots hqueues
  have hbooks : ∀ (u : State) (k : Batch), u.batches = a.batches →
      (u.setContext old.client m k).batches = (after.setContext old.client m k).batches :=
    fun u k hu => setContext_batches (hu.trans (by rw [← ha, hafter]; rfl)) _ _ k
  have hlist : a.batches.sealList = s.batches.sealList := by rw [← ha]; rfl
  have hwhole : begin a = (⟨a, []⟩ : Work) := rfl
  have hc' : a.gen.c = e := by rw [← ha]; rfl
  rw [hw]
  refine ⟨hslot.trans hslots, hqueue.trans (by rw [hafter]; rfl), ?_, fun htwo => ⟨?_, ?_⟩,
    fun hone => ⟨?_, ?_⟩⟩
  · refine hleft.trans ?_
    rw [hstore, map_filter_named, hafter]
    rfl
  · refine hbatches.trans ?_
    have hresolved := hmore htwo
    rw [hwhole, hresolved]
    exact hbooks _ _ rfl
  · exact congrArg Work.out (hmore htwo)
  · refine hbatches.trans ?_
    have hresolved := hlast hone
    rw [hwhole, hresolved, hlist]
    exact setSealList_batches (hbooks _ _ rfl) _
  · refine (congrArg Work.out (hlast hone)).trans ?_
    rw [hc']
    rfl

/-- R112: the older change's client is told. -/
theorem over_now {j : Client} {tag : Byte} {w : Work}
    (hw : w = (offerTo j (.writeDone tag x.slot .superseded)
      (begin ((releasing e x.batch n c s).setQueue b rest))).update (admitted b x rest)) :
    w.st.slots = s.slots ∧ w.st.queues = after.queues ∧ w.st.store = after.store ∧
      w.st.batches = after.batches ∧
      w.out = [⟨j, e, .writeDone tag x.slot .superseded⟩] := by
  have hslots : ((releasing e x.batch n c s).setQueue b rest).slots = s.slots := rfl
  have hqueues : ((releasing e x.batch n c s).setQueue b rest).queues =
      (s.setQueue b rest).queues := rfl
  obtain ⟨hqueue, hbatches, hslot, -⟩ := admitted_spec (x := x) hslots hqueues
  have hleft := admitted_store hdue hdistinct hslots hqueues fun y hy => hy
  rw [hw]
  exact ⟨hslot, hqueue.trans (by rw [hafter]; rfl), hleft.trans (by rw [hafter]; rfl),
    hbatches.trans (by rw [hafter]; rfl), rfl⟩

end Downstream

end Sys2Proof.BoundaryOfOne

end


section
/-! PROOFS. A boundary at which several downstream records are due (R69, R71, R72). -/

set_option Elab.async false

namespace Sys2Proof.SeveralReleases

open Sys2Proof Sys2Proof.Machine Sys2Proof.Commands Sys2Proof.Requests Sys2Proof.Refills
open Sys2Proof.SealedBooks Sys2Proof.Boundaries Sys2Proof.Pieces Sys2Proof.SingleReleases

/-- R71: the records of `p` that enter bus `b`'s queue: the first ones, while it has places. -/
def takenOf (s : State) (p : List PendingRecord) (b : BusNo) : List PendingRecord :=
  (p.filter (fun x => s.slotBus x.slot == some b)).take (32 - (s.queue b).length)

/-- R68, R72: a record once those of `p` are released or deferred. -/
def recordAfter (s : State) (p : List PendingRecord) (x : PendingRecord) : PendingRecord :=
  if x ∈ takenOf s p 0 ∨ x ∈ takenOf s p 1 then { x with state := .released }
  else if x ∈ p then { x with state := .deferred } else x

theorem mem_of_mem_takenOf {s : State} {p : List PendingRecord} {b : BusNo} {x : PendingRecord}
    (h : x ∈ takenOf s p b) : x ∈ p := List.mem_of_mem_filter (List.mem_of_mem_take h)

theorem recordAfter_names (s : State) (p : List PendingRecord) (x : PendingRecord) :
    (recordAfter s p x).slot = x.slot ∧ (recordAfter s p x).target = x.target ∧
      (recordAfter s p x).batch = x.batch ∧ (recordAfter s p x).position = x.position := by
  unfold recordAfter
  split
  · exact ⟨rfl, rfl, rfl, rfl⟩
  · split <;> exact ⟨rfl, rfl, rfl, rfl⟩

theorem recordAfter_other {s : State} {p : List PendingRecord} {x : PendingRecord} (h : x ∉ p) :
    recordAfter s p x = x := by
  unfold recordAfter
  rw [if_neg (fun ht => h (ht.elim mem_of_mem_takenOf mem_of_mem_takenOf)), if_neg h]

theorem recordAfter_mem {s : State} {p : List PendingRecord} {x : PendingRecord} (h : x ∈ p) :
    (recordAfter s p x).state ≠ .waiting := by
  unfold recordAfter
  by_cases ht : x ∈ takenOf s p 0 ∨ x ∈ takenOf s p 1
  · rw [if_pos ht]
    simp
  · rw [if_neg ht, if_pos h]
    simp

/-- R71: the next record of its bus enters while there is a place. -/
theorem takenOf_append (s : State) (p : List PendingRecord) (x : PendingRecord) (b : BusNo) :
    takenOf s (p ++ [x]) b = takenOf s p b ++
      if s.slotBus x.slot = some b ∧ (s.queue b).length + (takenOf s p b).length < 32
      then [x] else [] := by
  unfold takenOf
  rw [List.filter_append]
  generalize p.filter (fun x => s.slotBus x.slot == some b) = own
  by_cases hbus : s.slotBus x.slot = some b
  · rw [List.filter_cons_of_pos (by simp [hbus]), List.filter_nil, List.take_append,
      List.length_take]
    by_cases hroom : (s.queue b).length + min (32 - (s.queue b).length) own.length < 32
    · rw [if_pos ⟨hbus, hroom⟩, List.take_of_length_le (l := [x]) (by rw [List.length_singleton]; omega)]
    · rw [if_neg fun hand => hroom hand.2, List.take_eq_nil_iff (l := [x]) |>.mpr (.inl (by omega))]
  · rw [List.filter_cons_of_neg (by simp [hbus]), List.filter_nil, List.append_nil,
      if_neg fun hand => hbus hand.1, List.append_nil]

/-- R50, R69, R71, R72: the records of `p` have been released. -/
structure ReleasedTo (s : State) (p : List PendingRecord) (w : Work) : Prop where
  slots : w.st.slots = s.slots
  buses : w.st.buses = s.buses
  queue : ∀ b : BusNo, w.st.queue b = s.queue b ++ (takenOf s p b).map (writeEntryFor s false)
  probes : w.st.queues.probes = s.queues.probes
  store : w.st.store = s.store.map (recordAfter s p)
  batches : w.st.batches = { s.batches with context := w.st.batches.context }
  found : ∀ q : BatchRef, w.st.sealedContext q = s.sealedContext q
  context : ∀ (j : Client) (n : Fin 4), w.st.context j n =
    if ∃ x ∈ p, x.batch.client = j ∧ s.sealedContext x.batch = some n
    then { s.context j n with state := .releasing } else s.context j n
  out : w.out = []

theorem releasedTo_nil {s v : State} (hslots : v.slots = s.slots) (hbuses : v.buses = s.buses)
    (hqueues : v.queues = s.queues) (hstore : v.store = s.store) (hbatches : v.batches = s.batches) :
    ReleasedTo s [] ⟨v, []⟩ where
  slots := hslots
  buses := hbuses
  queue b := by
    unfold takenOf State.queue
    rw [hqueues, List.filter_nil, List.take_nil, List.map_nil, List.append_nil]
  probes := by rw [hqueues]
  store := hstore.trans ((List.map_congr_left fun x _ => recordAfter_other
    (List.not_mem_nil)).trans (List.map_id _)).symm
  batches := by rw [hbatches]
  found q := sealedContext_of_batches hbatches q
  context j n := by
    rw [if_neg fun ⟨x, hx, _⟩ => List.not_mem_nil hx]
    unfold State.context
    rw [hbatches]
  out := rfl

/-- R50: the batch of the next record is RELEASING. -/
theorem ReleasedTo.marked {s : State} {p : List PendingRecord} {w : Work} (h : ReleasedTo s p w)
    (x : PendingRecord) :
    (markReleasing x.batch w.st).batches =
      { s.batches with context := (markReleasing x.batch w.st).batches.context } ∧
    (∀ q : BatchRef, (markReleasing x.batch w.st).sealedContext q = s.sealedContext q) ∧
    ∀ (j : Client) (n : Fin 4), (markReleasing x.batch w.st).context j n =
      if ∃ y ∈ p ++ [x], y.batch.client = j ∧ s.sealedContext y.batch = some n
      then { s.context j n with state := .releasing } else s.context j n := by
  refine ⟨?_, fun q => (sealedContext_markReleasing q).trans (h.found q), fun j n => ?_⟩
  · have hlist : ∀ r v, (markReleasing r v).batches =
        { v.batches with context := (markReleasing r v).batches.context } := fun r v => by
      unfold markReleasing
      split <;> rfl
    rw [hlist, h.batches]
  · have hlast : (∃ y ∈ p ++ [x], y.batch.client = j ∧ s.sealedContext y.batch = some n) ↔
        (∃ y ∈ p, y.batch.client = j ∧ s.sealedContext y.batch = some n) ∨
          x.batch.client = j ∧ s.sealedContext x.batch = some n := by
      simp [or_and_right, exists_or]
    have hcontext := h.context j n
    have hfound := h.found x.batch
    cases hn : s.sealedContext x.batch with
    | none =>
      rw [hn] at hfound
      have hsame : markReleasing x.batch w.st = w.st := by
        unfold markReleasing
        rw [hfound]
      rw [hsame, hcontext]
      simp only [hlast, hn, reduceCtorEq, and_false, or_false]
    | some m =>
      rw [hn] at hfound
      rw [markReleasing_found hfound rfl, State.setContext_context]
      by_cases hat : x.batch.client = j ∧ m = n
      · obtain ⟨rfl, rfl⟩ := hat
        rw [if_pos ⟨rfl, rfl⟩, if_pos (hlast.mpr (.inr ⟨rfl, hn⟩)), hcontext]
        split <;> rfl
      · rw [if_neg hat, hcontext]
        refine if_congr ?_ rfl rfl
        rw [hlast, hn]
        exact ⟨.inl, fun hor => hor.resolve_right fun hand =>
          hat ⟨hand.1, Option.some.inj hand.2⟩⟩

theorem recordsDistinct_recordAfter {s t : State} {p : List PendingRecord} (h : RecordsDistinct s)
    (ht : t.store = s.store.map (recordAfter s p)) : RecordsDistinct t := by
  unfold RecordsDistinct
  rw [ht, List.pairwise_map]
  refine h.imp fun {x y} hxy => ?_
  obtain ⟨hxs, hxt, hxb, hxp⟩ := recordAfter_names s p x
  obtain ⟨hys, hyt, hyb, hyp⟩ := recordAfter_names s p y
  rw [hxs, hxt, hxb, hxp, hys, hyt, hyb, hyp]
  exact hxy

section Step

variable {s : State} {p : List PendingRecord} {x : PendingRecord} {d : DeviceNo} {b : BusNo}
  (hdistinct : RecordsDistinct s) (hx : x ∈ s.store) (hwaiting : x.state = .waiting)
  (hslots : ∀ y ∈ p, y.slot ≠ x.slot) (hdevice : (s.slot x.slot).device = some d)
  (hb : b = (s.device d).bus)
include hdistinct hx hwaiting hslots hdevice hb

omit hdistinct hx hwaiting hslots in
theorem bus_of_device (c : BusNo) : s.slotBus x.slot = some c ↔ b = c := by
  unfold State.slotBus
  rw [hdevice, Option.map_some, ← hb, Option.some_inj]

omit hdistinct hx hdevice hb in
theorem recordAfter_append {taken : Bool} (y : PendingRecord)
    (htaken : taken = true ↔ x ∈ takenOf s (p ++ [x]) 0 ∨ x ∈ takenOf s (p ++ [x]) 1) :
    recordAfter s (p ++ [x]) y =
      if recordAfter s p y = x then { x with state := if taken then .released else .deferred }
      else recordAfter s p y := by
  have hnew : x ∉ p := fun hmem => hslots x hmem rfl
  have hsame : ∀ c, y ≠ x → (y ∈ takenOf s (p ++ [x]) c ↔ y ∈ takenOf s p c) := fun c hne => by
    rw [takenOf_append, List.mem_append, or_iff_left]
    split <;> simp [hne]
  by_cases hyx : y = x
  · subst hyx
    rw [recordAfter_other hnew, if_pos rfl]
    unfold recordAfter
    cases taken
    · rw [if_neg fun h => Bool.false_ne_true (htaken.mpr h), if_pos (by simp)]
      rfl
    · rw [if_pos (htaken.mp rfl)]
      rfl
  · have hne : recordAfter s p y ≠ x := fun heq => by
      by_cases hy : y ∈ p
      · exact recordAfter_mem hy (by rw [heq]; exact hwaiting)
      · exact hyx ((recordAfter_other hy).symm.trans heq)
    have hmem : y ∈ p ++ [x] ↔ y ∈ p := by simp [hyx]
    rw [if_neg hne]
    unfold recordAfter
    simp only [hsame _ hyx, hmem]

/-- R71, R72: the next record enters its queue or becomes DEFERRED. -/
theorem releasedTo_next {w : Work} (h : ReleasedTo s p w)
    (hdeferred : ∀ y ∈ s.store, y.state = .deferred → y.slot ≠ x.slot)
    (hwaits : ∀ y ∈ s.queue b, y.waitsFor x.slot = false) :
    ReleasedTo s (p ++ [x]) (releaseRecord w x) := by
  have hslot : w.st.slot x.slot = s.slot x.slot := by
    unfold State.slot
    rw [h.slots]
  obtain ⟨hbatches, hfound, hcontext⟩ := h.marked x
  generalize hm : w.update (markReleasing x.batch) = m
  have hmst : m.st = markReleasing x.batch w.st := by rw [← hm]; rfl
  have hmslots : m.st.slots = s.slots := by rw [hmst, markReleasing_slots, h.slots]
  have hmqueues : m.st.queues = w.st.queues := by rw [hmst, markReleasing_queues]
  have hmstore : m.st.store = s.store.map (recordAfter s p) := by
    rw [hmst, markReleasing_store, h.store]
  have hmbuses : m.st.buses = s.buses := by rw [hmst, markReleasing_buses, h.buses]
  have hmqueue : ∀ c, m.st.queue c = s.queue c ++ (takenOf s p c).map (writeEntryFor s false) :=
    fun c => by
      rw [State.queue, hmqueues]
      exact h.queue c
  have hnone : ∀ y ∈ m.st.store, y.state = .deferred → y.slot ≠ x.slot := fun y hy hyd => by
    rw [hmstore] at hy
    obtain ⟨z, hz, rfl⟩ := List.mem_map.mp hy
    rw [(recordAfter_names s p z).1]
    by_cases hzp : z ∈ p
    · exact hslots z hzp
    · rw [recordAfter_other hzp] at hyd
      exact hdeferred z hz hyd
  have hquiet : ∀ y ∈ m.st.queue b, y.waitsFor x.slot = false := fun y hy => by
    rw [hmqueue] at hy
    obtain hy | hy := List.mem_append.mp hy
    · exact hwaits y hy
    · obtain ⟨z, hz, rfl⟩ := List.mem_map.mp hy
      have hne := hslots z (mem_of_mem_takenOf hz)
      simp [Entry.waitsFor, writeEntryFor, hne]
  have hbus : b = (m.st.device d).bus := by
    rw [hb]
    unfold State.device
    rw [hmbuses]
  have hstep : releaseRecord w x = m.update (admitted b x (m.st.queue b)) := by
    rw [releaseRecord_downstream (hslot ▸ hdevice), hm]
    refine releaseDownstream_admits hbus ?_ rfl (by unfold State.slot; rw [hmslots]; exact hdevice)
    rw [supersedeDeferred_none hnone, supersede_nothing hquiet]
  obtain ⟨hqueue, hbooks, hslots', hstore⟩ := admitted_spec (x := x) (s := m.st) (v := m.st)
    (b := b) (rest := m.st.queue b) rfl (by rw [setQueue_self])
  have hroom : (m.st.queue b).length < 32 ↔ x ∈ takenOf s (p ++ [x]) 0 ∨
      x ∈ takenOf s (p ++ [x]) 1 := by
    have hlength : (m.st.queue b).length = (s.queue b).length + (takenOf s p b).length := by
      rw [hmqueue, List.length_append, List.length_map]
    have hnew : ∀ c, x ∉ takenOf s p c := fun c hmem => hslots x (mem_of_mem_takenOf hmem) rfl
    have hone : ∀ c, x ∈ takenOf s (p ++ [x]) c ↔ b = c ∧ (m.st.queue b).length < 32 := fun c => by
      rw [takenOf_append, List.mem_append, or_iff_right (hnew c), hlength]
      simp only [bus_of_device hdevice hb]
      by_cases hbc : b = c
      · subst hbc
        by_cases hlt : (s.queue b).length + (takenOf s p b).length < 32 <;> simp [hlt]
      · simp [hbc]
    rw [hone, hone, ← or_and_right, and_iff_right]
    obtain hb0 | hb1 := ScheduleEvents.bus_cases b
    · exact .inl hb0
    · exact .inr hb1
  have hxm : x ∈ m.st.store := by
    rw [hmstore]
    exact List.mem_map.mpr ⟨x, hx, recordAfter_other fun hmem => hslots x hmem rfl⟩
  rw [hstep]
  refine {
    slots := hslots'.trans hmslots, buses := hmbuses, queue := fun c => ?_, probes := ?_,
    store := ?_, batches := ?_, found := fun q => ?_, context := fun j n => ?_, out := ?_ }
  · have hq : (m.update (admitted b x (m.st.queue b))).st.queue c = (m.st.setQueue b
        (if (m.st.queue b).length < 32 then m.st.queue b ++ [writeEntryFor m.st false x]
          else m.st.queue b)).queue c := by
      unfold State.queue
      exact congrArg (fun q : DispatchQueues => q.queue[c.val]) hqueue
    rw [hq, State.setQueue_queue, takenOf_append, writeEntryFor_congr hmslots]
    simp only [bus_of_device hdevice hb]
    by_cases hbc : b = c
    · subst hbc
      have hlength : (m.st.queue b).length = (s.queue b).length + (takenOf s p b).length := by
        rw [hmqueue, List.length_append, List.length_map]
      rw [if_pos rfl, hlength, hmqueue]
      by_cases hlt : (s.queue b).length + (takenOf s p b).length < 32 <;> simp [hlt]
    · rw [if_neg hbc, if_neg fun hand => hbc hand.1, List.append_nil, hmqueue]
  · refine (congrArg DispatchQueues.probes hqueue).trans ?_
    refine Eq.trans ?_ ((congrArg DispatchQueues.probes hmqueues).trans h.probes)
    rfl
  · refine hstore.trans ((setRecordState_store (recordsDistinct_recordAfter hdistinct hmstore) hxm
      fun y hy => hy).trans ?_)
    rw [hmstore, List.map_map]
    refine List.map_congr_left fun y _ => ?_
    rw [recordAfter_append (taken := decide ((m.st.queue b).length < 32)) hwaiting hslots y
      (by rw [decide_eq_true_iff]; exact hroom), Function.comp_apply]
    simp only [decide_eq_true_iff]
  · rw [Work.update_st, hbooks, hmst]
    exact hbatches
  · refine (sealedContext_of_batches hbooks q).trans ?_
    rw [hmst]
    exact hfound q
  · have hsame : (m.update (admitted b x (m.st.queue b))).st.context j n = m.st.context j n := by
      unfold State.context
      rw [Work.update_st, hbooks]
    rw [hsame, hmst]
    exact hcontext j n
  · have hout : m.out = w.out := by rw [← hm]; rfl
    exact hout.trans h.out

end Step

end Sys2Proof.SeveralReleases

end


section
/-! PROOFS. What a boundary releases (O33). -/

set_option Elab.async false

namespace Sys2Proof.BoundaryReleases

open Sys2Proof Sys2Proof.Machine Sys2Proof.Commands Sys2Proof.Requests Sys2Proof.Refills
open Sys2Proof.SealedBooks Sys2Proof.Boundaries Sys2Proof.Pieces Sys2Proof.SingleReleases
open Sys2Proof.BoundaryOfOne Sys2Proof.SeveralReleases

/-! ### One downstream record -/

/-- R50, R71, R72: with no older change of the slot, the record's entry joins the queue while it has a
place, and the record becomes DEFERRED otherwise. -/
theorem released_plain_spec {x : PendingRecord} {front back : List PendingRecord} {n : Fin 4}
    {c : Batch} {e : Epoch} {s : State} {d : DeviceNo} {b : BusNo} (hone : s.dueRecords e = [x])
    (hn : s.sealedContext x.batch = some n) (hc : c = s.context x.batch.client n)
    (hdevice : (s.slot x.slot).device = some d) (hb : b = (s.device d).bus)
    (hstore : s.store = front ++ x :: back) (hwaiting : x.state = .waiting) (hx : x.dispatch = e)
    (hothers : ∀ y ∈ front ++ back, (y.batch ≠ x.batch ∨ y.position ≠ x.position) ∧
      (y.state = .deferred → y.slot ≠ x.slot))
    (hwaits : ∀ y ∈ s.queue b, y.waitsFor x.slot = false) :
    (released e s).st.slots = s.slots ∧
    (released e s).st.batches =
      (s.setContext x.batch.client n { c with state := .releasing }).batches ∧
    ((s.queue b).length < 32 →
      (released e s).st.store = front ++ { x with state := .released } :: back ∧
      (released e s).st.queues = (s.setQueue b (s.queue b ++
        [{ kind := .write, device := d, register := (s.slot x.slot).register,
           width := (s.slot x.slot).width, order := (s.slot x.slot).order, value := x.value,
           slot := some x.slot, deadline := some e, late := false, attempts := 0,
           origin := .record x.batch x.position, discarded := false, onBus := false,
           stamp := none }])).queues) ∧
    (32 ≤ (s.queue b).length →
      (released e s).st.store = front ++ { x with state := .deferred } :: back ∧
      (released e s).st.queues = s.queues) := by
  have hdeferred : ∀ y ∈ s.store, y.state = .deferred → y.slot ≠ x.slot := fun y hy hyd => by
    rw [hstore] at hy
    obtain hy | hy := List.mem_append.mp hy
    · exact (hothers y (List.mem_append_left _ hy)).2 hyd
    · obtain rfl | hy := List.mem_cons.mp hy
      · rw [hwaiting] at hyd
        cases hyd
      · exact (hothers y (List.mem_append_right _ hy)).2 hyd
  obtain ⟨hqueue, hbooks, hslot, hstore'⟩ := admitted_spec (b := b) (x := x)
    (rest := s.queue b) (s := s) (v := releasing e x.batch n c s) rfl (by rw [setQueue_self]; rfl)
  have hsplit : ∀ st, (setRecordState x st (releasing e x.batch n c s)).store =
      front ++ { x with state := st } :: back := fun st =>
    setRecordState_split (v := releasing e x.batch n c s) hstore fun y hy => (hothers y hy).1
  rw [released_plain hone hn hc hdevice hb hdeferred hwaits rfl]
  rw [hsplit] at hstore'
  refine ⟨hslot, hbooks, fun hroom => ⟨?_, ?_⟩, fun hfull => ⟨?_, ?_⟩⟩
  · rw [if_pos hroom] at hstore'
    exact hstore'
  · rw [if_pos hroom] at hqueue
    refine hqueue.trans ?_
    unfold writeEntryFor
    rw [hdevice, hx]
    rfl
  · rw [if_neg (Nat.not_lt.mpr hfull)] at hstore'
    exact hstore'
  · rw [if_neg (Nat.not_lt.mpr hfull), setQueue_self] at hqueue
    exact hqueue

/-! ### Several records -/

/-- R69: the due records are released in their order. -/
theorem releasedTo_all {s : State} (hdistinct : RecordsDistinct s) {q p : List PendingRecord}
    {w : Work} (hdue : ∀ x ∈ q, x ∈ s.store ∧ x.state = .waiting ∧ (s.slot x.slot).device ≠ none ∧
      (∀ y ∈ s.store, y.state = .deferred → y.slot ≠ x.slot) ∧
      ∀ (b : BusNo), ∀ y ∈ s.queue b, y.waitsFor x.slot = false)
    (hnodup : ((p ++ q).map (·.slot)).Nodup) (hw : ReleasedTo s p w) :
    ReleasedTo s (p ++ q) (q.foldl releaseRecord w) := by
  induction q generalizing p w with
  | nil =>
    rw [List.append_nil]
    exact hw
  | cons x q ih =>
    obtain ⟨hx, hwaiting, hdevice, hdeferred, hwaits⟩ := hdue x (List.mem_cons_self ..)
    obtain ⟨d, hd⟩ := Option.ne_none_iff_exists'.mp hdevice
    have hslots : ∀ y ∈ p, y.slot ≠ x.slot := fun y hy => by
      rw [List.map_append, List.map_cons] at hnodup
      exact (List.nodup_append.mp hnodup).2.2 _ (List.mem_map_of_mem hy) _ (List.mem_cons_self ..)
    rw [List.append_cons] at hnodup ⊢
    exact ih (fun y hy => hdue y (List.mem_cons_of_mem _ hy)) hnodup
      (releasedTo_next hdistinct hx hwaiting hslots hd rfl hw hdeferred (hwaits _))

theorem dueRecords_eq {s : State} {e : Epoch} {due : List PendingRecord}
    (h : due = s.store.filter (fun x => decide (x.state = .waiting) && decide (x.dispatch = e))) :
    s.dueRecords e = due := by
  rw [h]
  refine List.filter_congr fun x _ => ?_
  rw [Bool.eq_iff_iff]
  simp

/-! ### The obligation -/

/-- Settles O33: local and downstream records, alone, over older changes, and several at once. -/
theorem boundaryReleasesTheDueRecord : Obligations.BoundaryReleasesTheDueRecord := by
  refine ⟨fun x front back n c r e s hs hrun hmode hline hopen hclose he hstore hwaiting hx hothers
      hn hc hr => ?_,
    fun x n c d b rest after e s hs hrun hmode hline hopen hclose he hdistinct hdue hn hc hdevice hb
      hafter => ⟨fun old position m o hother hm ho hold => ?_,
        fun front back y j tag hnone hq hrest hroom hkind hbus hslot horigin hfront => ?_⟩,
    fun e due own taken s hs hrun hmode hline hopen hclose he hdistinct hdue hnodup hfree htaken =>
      ?_⟩
  · have hone := dueRecords_one hstore hwaiting hx fun y hy => (hothers y hy).1
    have hafter := boundaryAfter e s
    obtain ⟨hclock, hclaims, hbuses, hhost, hphase, hpending⟩ := hafter.rest
    obtain ⟨hslots, hstores, hqueues, hbatches⟩ := hafter.tables
    refine ⟨_, exec_epochEnd_releases hs hrun hmode hline hopen hclose he, hclock, hclaims, hbuses,
      hhost, hphase, hpending, fun hlocal htwo => ?_, fun hlocal hlast => ?_,
      fun d b hdevice hb hwaits => ?_⟩
    · rw [hr] at hlocal
      obtain ⟨⟨hstore', hqueues', hslots'⟩, hmore, -⟩ := released_local_spec hone hn hc hlocal
        (filter_others hstore fun y hy => (hothers y hy).2.1) hx rfl rfl
      rw [hr]
      exact ⟨hstores.trans hstore', hqueues.trans hqueues', hslots.trans hslots',
        hbatches.trans (hmore htwo)⟩
    · rw [hr] at hlocal
      obtain ⟨⟨hstore', hqueues', hslots'⟩, -, hdone⟩ := released_local_spec hone hn hc hlocal
        (filter_others hstore fun y hy => (hothers y hy).2.1) hx rfl rfl
      obtain ⟨hbooks, hout⟩ := hdone hlast
      rw [hr]
      refine ⟨hstores.trans hstore', hqueues.trans hqueues', hslots.trans hslots',
        hbatches.trans hbooks, fun hmark => ?_⟩
      rw [hafter.unmarked hmark, hout]
      rfl
    · rw [hr] at hdevice ⊢
      obtain ⟨hslot, hbooks, hroom, hfull⟩ := released_plain_spec hone hn hc hdevice hb hstore
        hwaiting hx (fun y hy => (hothers y hy).2) hwaits
      exact ⟨hslots.trans hslot, hbatches.trans hbooks,
        fun h => ⟨hstores.trans (hroom h).1, hqueues.trans (hroom h).2⟩,
        fun h => ⟨hstores.trans (hfull h).1, hqueues.trans (hfull h).2⟩⟩
  · have hbegun := boundaryAfter e s
    obtain ⟨hclock, hclaims, hbuses, hhost, -, -⟩ := hbegun.rest
    obtain ⟨hslots, hstores, hqueues, hbatches⟩ := hbegun.tables
    obtain ⟨hslot, hqueue, hstore, hmore, hlast⟩ := over_record hdue hdistinct hafter hn hc hother hm
      ho (released_over_record hdue hn hc hdevice hb hold)
    refine ⟨_, exec_epochEnd_releases hs hrun hmode hline hopen hclose he, hclock,
      hslots.trans hslot, hclaims, hbuses, hhost, hqueues.trans hqueue, hstores.trans hstore,
      fun htwo => ⟨hbatches.trans (hmore htwo).1, fun hmark => ?_⟩,
      fun hone => ⟨hbatches.trans (hlast hone).1, fun hmark => ?_⟩⟩
    · rw [hbegun.unmarked hmark, (hmore htwo).2]
      rfl
    · rw [hbegun.unmarked hmark, (hlast hone).2]
      rfl
  · have hbegun := boundaryAfter e s
    obtain ⟨hclock, hclaims, hbuses, hhost, -, -⟩ := hbegun.rest
    obtain ⟨hslots, hstores, hqueues, hbatches⟩ := hbegun.tables
    obtain ⟨hslot', hqueue, hstore, hbooks, hout⟩ := over_now hdue hdistinct hafter
      (released_over_now hdue hn hc hdevice hb hnone hq hrest hkind hbus hslot horigin hfront)
    refine ⟨_, exec_epochEnd_releases hs hrun hmode hline hopen hclose he, hclock,
      hslots.trans hslot', hclaims, hbuses, hhost, hqueues.trans hqueue, hstores.trans hstore,
      hbatches.trans hbooks, fun hmark => ?_⟩
    rw [hbegun.unmarked hmark, hout]
    rfl
  · have hbegun := boundaryAfter e s
    obtain ⟨hclock, hclaims, hbuses, hhost, -, -⟩ := hbegun.rest
    obtain ⟨hslots, hstores, hqueues, hbatches⟩ := hbegun.tables
    have hall : ReleasedTo s due (released e s) := by
      unfold released
      rw [dueRecords_eq hdue]
      refine releasedTo_all hdistinct (p := []) (fun x hx => ?_) hnodup
        (releasedTo_nil rfl rfl rfl rfl rfl)
      obtain ⟨hdevice, hdeferred, hwaits⟩ := hfree x hx
      rw [hdue, List.mem_filter, Bool.and_eq_true, decide_eq_true_iff] at hx
      exact ⟨hx.1, hx.2.1, hdevice, hdeferred, hwaits⟩
    have htakenOf : ∀ b, taken b = takenOf s due b := fun b => by
      rw [(htaken b).2, (htaken b).1]
      rfl
    have hcontext : ∀ j n, (startEpochNow e (begin s)).finish.context j n =
        (released e s).st.context j n := fun j n => by
      unfold State.context
      rw [hbatches]
    refine ⟨_, exec_epochEnd_releases hs hrun hmode hline hopen hclose he, hclock,
      hslots.trans hall.slots, hclaims, hbuses, hhost, fun b => ?_, ?_, ?_, ?_,
      fun x hx n hn => ?_, fun j n hno => ?_, fun k hk => hbegun.quiet hall.out k hk⟩
    · rw [State.queue, hqueues, htakenOf]
      exact hall.queue b
    · rw [hqueues]
      exact hall.probes
    · rw [htakenOf, htakenOf]
      exact hstores.trans hall.store
    · rw [hbatches]
      exact hall.batches
    · rw [hcontext, hall.context, if_pos ⟨x, hx, rfl, hn⟩]
    · rw [hcontext, hall.context, if_neg fun ⟨x, hx, hclient, hn⟩ => hno x hx hclient hn]

end Sys2Proof.BoundaryReleases

end
